-- ==== Sys2Proof/Word.lean ====
section
/-! DEFINITION. The value types that cross the block's ports: words, operands, answers, results. -/

namespace Sys2Proof

/-- A command word: 16 bits, bit 0 least significant (spec R10, R66). -/
abbrev Word := BitVec 16

/-- A request word: `REQ_W` = 26 bits (spec R62). -/
abbrev ReqWord := BitVec 26

/-- The channel operand of a request: `CHAN_W` = 8 bits, unsigned (spec R8, R62). -/
abbrev ChannelOperand := BitVec 8

/-- The value operand of a request: `VAL_W` = 16 bits, unsigned (spec R8, R62). -/
abbrev ValueOperand := BitVec 16

/-- The transport's answer to one send (spec R17, R41). `fail` stands for every `TransportFailure`. -/
inductive Answer where
  | ok
  | fail
  deriving DecidableEq, Repr

/-- `OperationResult`, "one of {Ok, ParameterError, TransportError}" (spec R16, R107). -/
inductive OperationResult where
  | ok
  | parameterError
  | transportError
  deriving DecidableEq, Repr, Inhabited

end Sys2Proof
end

