-- ==== Sys2Proof/Machine/Flags.lean ====
section
/-! DEFINITION. The block has no flags (spec R21); its only status is the result of an operation. The mapping of the
transport's answer to a result, and the codes of the response port. -/

namespace Sys2Proof.Machine

/-- "Maps transport failure → TransportError; success → Ok" (spec R84, R91, R99). -/
def resultOf : Answer → OperationResult
  | .ok => .ok
  | .fail => .transportError

/-- The code of a result on `rsp_result` (spec R108). -/
def resultCode : OperationResult → BitVec 2
  | .ok => 0b00#2
  | .parameterError => 0b01#2
  | .transportError => 0b10#2

end Sys2Proof.Machine
end

