-- ==== Sys2Proof/Config.lean ====
section
/-! DEFINITION. What the spec leaves open: the timeout parameter and the free values. None of these has a body,
so nothing can be proved of its value. -/

namespace Sys2Proof.Config

/-- `TIMEOUT_W`, OPEN in the spec (R8, R119). Assumption log 9. -/
opaque timeoutWidth : Nat

/-- `TX_TIMEOUT`, the constant presented with every send; OPEN in the spec (R8, R119). Assumption log 9. -/
opaque txTimeout : BitVec timeoutWidth

/-- What `req_q` holds while the block is idle: any value (spec R23, R37, U12). Assumption log 8. -/
opaque freeRequest : Nat → ReqWord

/-- What `tx_word` shows outside a send: any value (spec R26, R37, U12). Assumption log 8. -/
opaque freeWord : Nat → Word

/-- What `rsp_result` shows while `rsp_valid` is 0: any value (spec R26, R37, U12). Assumption log 8. -/
opaque freeResult : Nat → OperationResult

/-- `W_EN1(c)` for `c >= 8`, "not defined by this spec" (R71, U15): a free value of the operand. Assumption log 10. -/
opaque undefinedEnableWord : ChannelOperand → Word

end Sys2Proof.Config
end

