-- ==== Sys2Proof/Syntax.lean ====
section
/-! DEFINITION. The instructions: one constructor per row of spec/opcode_table.json. -/

namespace Sys2Proof

/-- The four kinds of request and the two layouts of a command word. -/
inductive Instr where
  /-- SCR, `SetChannelRegister(channel, value)` (spec R81, R82). -/
  | scr (channel : ChannelOperand) (value : ValueOperand)
  /-- SCO, `SetChannelOutputs(enableWord)`; the request's channel field is carried and ignored (spec R89, R90). -/
  | sco (channel : ChannelOperand) (enableWord : Word)
  /-- SDO, `SetDirectOutput(channel, value)` (spec R97, R98). -/
  | sdo (channel : ChannelOperand) (value : ValueOperand)
  /-- RESERVED_OP3, the reserved operation code `0b11` with whatever stands in the other fields (spec R65). -/
  | reservedOp3 (channel : ChannelOperand) (value : ValueOperand)
  /-- CW_REG, the register-write command word `1ccc vvvv vvvv vvvv` (spec R67). -/
  | cwReg (channel : BitVec 3) (value : BitVec 12)
  /-- CW_EN, the conforming output-enable command word `1010 0000 eeee eeee` (spec R68). -/
  | cwEn (mask : BitVec 8)
  deriving DecidableEq, Repr

end Sys2Proof
end

