-- ==== Sys2Proof/WellFormed.lean ====
section
/-! DEFINITION. Which instruction terms are well formed. Operand widths are in the types; an out-of-range operand of
SCR or SDO is a well-formed request that completes with ParameterError (spec R64). -/

namespace Sys2Proof

/-- A request the caller may present: every one but the reserved code (spec R65). A command word is no request and
is not ruled out here. -/
def Instr.admitted : Instr → Bool
  | .scr _ _ => true
  | .sco _ _ => true
  | .sdo _ _ => true
  | .reservedOp3 _ _ => false
  | .cwReg _ _ => true
  | .cwEn _ => true

/-- A register-write word of channel 2 with a value below 256 is bit for bit a conforming enable word (spec R78(a));
its canonical term is the `cwEn` one (assumption log 13). -/
def Instr.canonical : Instr → Bool
  | .scr _ _ => true
  | .sco _ _ => true
  | .sdo _ _ => true
  | .reservedOp3 _ _ => true
  | .cwReg c v => !(c == 2#3 && decide (v.toNat < 256))
  | .cwEn _ => true

/-- Well formed: admitted by the request rules, and the canonical term of its word. -/
def Instr.wellFormed (i : Instr) : Bool := i.admitted && i.canonical

end Sys2Proof
end

