-- ==== Sys2Proof/Decode.lean ====
section
/-! DEFINITION. The decoder (total, rejecting by name) and, after it, the encoder, for request words (spec R62 to R65)
and for the two command-word layouts (spec R67, R68). -/

namespace Sys2Proof

/-- The operation select codes (spec R63). -/
inductive OpCode where
  | scr
  | sco
  | sdo
  | reserved
  deriving DecidableEq, Repr

/-- A word as it stands on one of the two ports that carry encodings: a request word or a command word. -/
inductive EncodedWord where
  | request (r : ReqWord)
  | command (w : Word)
  deriving DecidableEq, Repr

/-- Why a word is no instruction. -/
inductive DecodeError where
  /-- The width is neither a command word's nor a request word's (spec R62, R77: no other length exists). -/
  | unknownWidth
  /-- A bit is set above the format's top bit. -/
  | bitsBeyondFormat
  /-- A command word with bit 15 clear matches neither layout (spec R67, R68). -/
  | noCommandLayout
  deriving DecidableEq, Repr

/-- `req[25:24]`, `op` (spec R62). -/
def opField (r : ReqWord) : BitVec 2 := r.extractLsb' 24 2

/-- `req[23:16]`, `channel` (spec R62). -/
def channelField (r : ReqWord) : ChannelOperand := r.extractLsb' 16 8

/-- `req[15:0]`, `value` (spec R62). -/
def valueField (r : ReqWord) : ValueOperand := r.extractLsb' 0 16

/-- The operation a request selects: a two-bit case on `req[25:24]` (spec R63, R64). -/
def opcode (r : ReqWord) : OpCode :=
  if opField r = 0b00#2 then .scr
  else if opField r = 0b01#2 then .sco
  else if opField r = 0b10#2 then .sdo
  else .reserved

/-- Decoding a request cannot fail; validation is no part of it (spec R64). -/
def decodeRequest (r : ReqWord) : Instr :=
  match opcode r with
  | .scr => .scr (channelField r) (valueField r)
  | .sco => .sco (channelField r) (valueField r)
  | .sdo => .sdo (channelField r) (valueField r)
  | .reserved => .reservedOp3 (channelField r) (valueField r)

/-- Reading a command word by the table's two rows. The block itself never does this (spec R78). Where both rows
match, the narrower one, CW_EN, is taken (assumption log 13). -/
def decodeCommand (w : Word) : Except DecodeError Instr :=
  if w.extractLsb' 8 8 = 0xA0#8 then .ok (.cwEn (w.extractLsb' 0 8))
  else if w.getLsbD 15 then .ok (.cwReg (w.extractLsb' 12 3) (w.extractLsb' 0 12))
  else .error .noCommandLayout

/-- The decoder on the word of either port. -/
def decode : EncodedWord → Except DecodeError Instr
  | .request r => .ok (decodeRequest r)
  | .command w => decodeCommand w

/-- Raw bits of a given width as the word of a port: 16 bits are a command word, 26 bits (or those padded with zeros
to whole bytes, 32) a request word. Assumption log 23. -/
def readBits (nbits w : Nat) : Except DecodeError EncodedWord :=
  if nbits = 16 then
    if w < 2 ^ 16 then .ok (.command (BitVec.ofNat 16 w)) else .error .bitsBeyondFormat
  else if nbits = 26 ∨ nbits = 32 then
    if w < 2 ^ 26 then .ok (.request (BitVec.ofNat 26 w)) else .error .bitsBeyondFormat
  else .error .unknownWidth

/-- The decoder on raw bits of any width. -/
def decodeBits (nbits w : Nat) : Except DecodeError Instr :=
  match readBits nbits w with
  | .ok e => decode e
  | .error e => .error e

/-- What the decoder reads from an instruction whose bits are `w`, numbered as spec/opcode_table.json numbers them. -/
def decodeTableWord (nbits w : Nat) : Option Instr :=
  match decodeBits nbits w with
  | .ok i => some i
  | .error _ => none

/-- A request word from its three fields (spec R62). -/
def requestWord (op : BitVec 2) (c : ChannelOperand) (v : ValueOperand) : ReqWord :=
  (op.setWidth 26 <<< 24) ||| (c.setWidth 26 <<< 16) ||| v.setWidth 26

/-- A register-write command word from its fields: `1ccc vvvv vvvv vvvv` (spec R67). -/
def registerWriteLayout (c : BitVec 3) (v : BitVec 12) : Word :=
  0x8000#16 ||| (c.setWidth 16 <<< 12) ||| v.setWidth 16

/-- A conforming enable word from its mask: `1010 0000 eeee eeee` (spec R68). -/
def outputEnableLayout (e : BitVec 8) : Word := 0xA000#16 ||| e.setWidth 16

/-- The encoder: the word of an instruction (spec R62, R63, R67, R68). -/
def encode : Instr → EncodedWord
  | .scr c v => .request (requestWord 0b00#2 c v)
  | .sco c w => .request (requestWord 0b01#2 c w)
  | .sdo c v => .request (requestWord 0b10#2 c v)
  | .reservedOp3 c v => .request (requestWord 0b11#2 c v)
  | .cwReg c v => .command (registerWriteLayout c v)
  | .cwEn e => .command (outputEnableLayout e)

end Sys2Proof
end

