-- ==== Sys2Proof/Machine/Operands.lean ====
section
/-! DEFINITION. Operand assembly: the tags and flags, the validation predicate, the two command-word formulas, and the
word a request sends first (spec R7, R69 to R76). -/

namespace Sys2Proof.Machine

/-- `TAG_WRITE_REG` in place, `0x8 << 12` (spec R7, R76). -/
def tagWriteReg : Word := 0x8#16 <<< 12

/-- `updateSelectedTag`, `DAC_TAG_UPDATE_SELECT` = `0xA000` (spec R7, R76). -/
def tagUpdateSelect : Word := 0xA000#16

/-- `CHANNEL_MASK` (spec R7). -/
def channelMask : Word := 0x7#16

/-- `VALUE_MASK` (spec R7). -/
def valueMask : Word := 0xFFF#16

/-- `CH_FLAG(n)`, `DAC_CHn` = `1 << n` (spec R7, R76). -/
def channelFlag (n : Nat) : Word := 1#16 <<< n

/-- The validation predicate `channel <= 7 and value <= 4095`, on the whole operand fields (spec R28, R74, R83). -/
def valid (c : ChannelOperand) (v : ValueOperand) : Bool := decide (c.toNat ≤ 7) && decide (v.toNat ≤ 4095)

/-- `W_REG(c, v) = (0x8 << 12) | ((zext_16(c) & 0x7) << 12) | (v & 0xFFF)`, "this exact bit arithmetic" (spec R69). -/
def wReg (c : ChannelOperand) (v : ValueOperand) : Word :=
  tagWriteReg ||| ((c.setWidth 16 &&& channelMask) <<< 12) ||| (v &&& valueMask)

/-- `W_EN1(c) = 0xA000 | (1 << c)` for `c` in 0 to 7; undefined elsewhere (spec R71, U15; assumption log 10). -/
def wEn1 (c : ChannelOperand) : Word :=
  if c.toNat ≤ 7 then tagUpdateSelect ||| channelFlag c.toNat else Config.undefinedEnableWord c

/-- A conforming enable word: `[15:12] = 1010`, `[11:8] = 0000` (spec R17, R68). -/
def conforming (w : Word) : Bool := w.extractLsb' 12 4 == 0b1010#4 && w.extractLsb' 8 4 == 0b0000#4

/-- The enable word a caller builds for a set of channels: the tag OR-ed with their flags (spec R76). -/
def enableWordFor : List (Fin 8) → Word
  | [] => tagUpdateSelect
  | n :: ns => channelFlag n.val ||| enableWordFor ns

/-- The word of a request's first send, if it has one: W_REG for SCR and SDO when the operands are valid, the operand
itself for SCO, no send for an invalid or reserved request (spec R28, R72). -/
def firstSend (r : ReqWord) : Option Word :=
  match opcode r with
  | .scr => if valid (channelField r) (valueField r) then some (wReg (channelField r) (valueField r)) else none
  | .sco => some (valueField r)
  | .sdo => if valid (channelField r) (valueField r) then some (wReg (channelField r) (valueField r)) else none
  | .reserved => none

end Sys2Proof.Machine
end

