-- ==== Sys2Proof/Machine/State.lean ====
section
/-! DEFINITION. The state of the machine as plain data, its reset value, its events, and the reasons a step can stop. -/

namespace Sys2Proof.Machine

/-- The block's phase (spec R23): idle; first (or only) send started; second send of a SetDirectOutput started. -/
inductive Phase where
  | idle
  | tx1
  | tx2
  deriving DecidableEq, Repr

/-- The input events of the step relation (spec R27). -/
inductive InputEvent where
  /-- `Req(r)`: the caller's request `r` is accepted. -/
  | req (r : ReqWord)
  /-- `TxDone(b)`: the transport answers the outstanding send. -/
  | txDone (b : Answer)
  /-- `Reset`. -/
  | reset
  deriving DecidableEq, Repr

/-- The output events of the step relation (spec R27). -/
inductive OutputEvent where
  /-- `TxStart(w)`: the block starts one send of `w`. -/
  | txStart (w : Word)
  /-- `Rsp(R)`: the block returns the result of the operation. -/
  | rsp (r : OperationResult)
  deriving DecidableEq, Repr

/-- Faults. There is none: the block has no traps, and its errors are results (spec R114, R116). -/
inductive Fault where
  deriving DecidableEq, Repr

/-- Refusals: why the model gives no next state. All are safe: the model stops where it says nothing of the
hardware. -/
inductive Refusal where
  /-- An instruction without a meaning in this model; raised by `exec`'s rejected arms, of which none is left. Safe. -/
  | notModelled (mnemonic : String)
  /-- A request with `op = 0b11`: "A model refuses it" (spec R65, U10). Raised by `execReservedOp3`, and by the answer
  to a send of such a request, which no run reaches (R29 has no row for it). Safe. -/
  | reservedOperation
  /-- A request handed to a block that is not idle: "`Req` is not enabled" (spec R31(a), U2). Raised by the meanings of
  the requests, never by the step, which leaves the request with the caller. Safe. -/
  | requestWhileBusy
  /-- A command word whose send is not outstanding on the transport port: the block sends only what a request makes
  it send (spec R31(c), R118; assumption log 12). Raised by `execCwReg` and `execCwEn`. Safe. -/
  | commandWordNotOnTransport
  /-- A reset during an operation: "refused" (spec R116, R126, U11). Raised by the step. Safe. -/
  | resetInFlight
  /-- A reset in Idle after the first request of the run: "a model should take `Reset` as the launch state only and
  refuse (give no meaning to) a `Reset` after the first request" (spec R126, U11, D12; assumption log 11). Raised by the
  step. Safe. -/
  | resetAfterFirstRequest
  /-- `tx_done` in the same cycle as the `tx_start` it answers: "The transport must not" (spec R26). Raised by the
  signal-level `clockEdge` only. Safe. -/
  | answerInStartCycle
  deriving DecidableEq, Repr

/-- The state: the block (spec R23), its output ports (spec R26), the inputs that are still to come, and what is the
model's own: the record of the run and the counter for free values. -/
structure State where
  /-- `phase` (spec R23). -/
  phase : Phase
  /-- `req_q`, the accepted request; meaningful only while `phase` is not idle (spec R23). -/
  reqQ : ReqWord
  /-- `tx_start`, a pulse (spec R26). -/
  txStart : Bool
  /-- `tx_word`, held from its `tx_start` to its `tx_done` (spec R26). -/
  txWord : Word
  /-- `rsp_valid`, a pulse (spec R26). -/
  rspValid : Bool
  /-- `rsp_result`, meaningful only while `rsp_valid` is 1 (spec R26). -/
  rspResult : OperationResult
  /-- Input: the requests the caller will present, first first; the head is on `req_data` (spec R24(b), R38). -/
  requests : List ReqWord
  /-- Input: the transport's answers to come, first first (spec R24(c), R41). -/
  answers : List Answer
  /-- Input: `rst`, sampled at the next step (spec R26, R30). -/
  rst : Bool
  /-- The model's own record of the run, which no port shows: a request has been accepted since the launch, so a reset
  is no longer the launch (spec R126, U11; assumption log 11). -/
  started : Bool
  /-- The model's own: which free value is the next to be drawn (assumption log 8). -/
  freeCount : Nat
  deriving DecidableEq, Repr

/-- Right after reset (spec R37, R124): idle, nothing owed, nothing started; no input yet, and no request
of the run accepted yet. `reqQ`, `txWord` and
`rspResult` are unspecified there, and are DESIGN CHOICES (assumption log 5, 6, 7). -/
def State.reset : State :=
  { phase := .idle
    reqQ := 0#26
    txStart := false
    txWord := 0#16
    rspValid := false
    rspResult := .ok
    requests := []
    answers := []
    rst := false
    started := false
    freeCount := 0 }

end Sys2Proof.Machine
end

