-- ==== Sys2Proof/Machine/Ops.lean ====
section
/-! DEFINITION. The shared operations: starting a send, completing an operation, waiting, the answer to a send, reset,
and which input the next step takes. There is no trap entry and no return: an error is a completed operation
(spec R114, R115). -/

namespace Sys2Proof.Machine

/-- `req_ready`: 1 exactly when the phase is idle (spec R26). -/
def State.reqReady (s : State) : Bool := decide (s.phase = .idle)

/-- The output event that led into this state, read off the pulses (spec R26, R27). -/
def State.output (s : State) : Option OutputEvent :=
  if s.txStart then some (.txStart s.txWord)
  else if s.rspValid then some (.rsp s.rspResult)
  else none

/-- `req_q` takes the accepted request (spec R23, R56), and the run has its first request (spec R126). -/
def State.latch (r : ReqWord) (s : State) : State := { s with reqQ := r, started := true }

/-- Event `TxStart(w)`: `w` goes to the transport and is held there; the block waits in phase `p` (spec R12, R28, R29). -/
def startSend (p : Phase) (w : Word) (s : State) : State :=
  { s with
    phase := p
    txStart := true
    txWord := w
    rspValid := false
    rspResult := Config.freeResult s.freeCount
    freeCount := s.freeCount + 1 }

/-- Event `Rsp(R)`, `complete(R)`: the result is returned and the block is idle, holding nothing of the operation
(spec R12, R34); `req_q` and `tx_word` are then any value (spec U12). -/
def complete (result : OperationResult) (s : State) : State :=
  { s with
    phase := .idle
    reqQ := Config.freeRequest s.freeCount
    txStart := false
    txWord := Config.freeWord s.freeCount
    rspValid := true
    rspResult := result
    freeCount := s.freeCount + 1 }

/-- No input event: "Nothing else happens while waiting" (spec R12, R42); the pulses fall (spec R26). -/
def quiet (s : State) : State :=
  { s with
    txStart := false
    rspValid := false
    rspResult := Config.freeResult s.freeCount
    freeCount := s.freeCount + 1 }

/-- Event `Reset`, what the hardware does from any state: no output event, next state idle, the operation in flight
abandoned without a response (spec R30, R37). The inputs are not the block's and stay. It is a new launch (spec R126). -/
def onReset (s : State) : State :=
  { s with
    phase := .idle
    reqQ := Config.freeRequest s.freeCount
    txStart := false
    txWord := Config.freeWord s.freeCount
    rspValid := false
    rspResult := Config.freeResult s.freeCount
    started := false
    freeCount := s.freeCount + 1 }

/-- Event `TxDone(b)` (spec R29). In idle it is ignored (spec R31(b)). The one case without a row, an answer ok to a
send of a reserved request, has no next state (spec R31, R65). -/
def onTxDone (b : Answer) (s : State) : Host.Outcome State Fault Refusal :=
  match s.phase with
  | .idle => .next (quiet s)
  | .tx1 =>
    match opcode s.reqQ with
    | .scr => .next (complete (resultOf b) s)
    | .sco => .next (complete (resultOf b) s)
    | .sdo =>
      .next (match b with
        | .ok => startSend .tx2 (wEn1 (channelField s.reqQ)) s
        | .fail => complete .transportError s)
    | .reserved =>
      match b with
      | .ok => .refused .reservedOperation
      | .fail => .next (complete .transportError s)
  | .tx2 => .next (complete (resultOf b) s)

/-- A request acts only on an idle block: in Tx1 and Tx2 "no request is accepted" (spec R31(a), U2). -/
def whenIdle (s : State) (t : State) : Host.Outcome State Fault Refusal :=
  match s.phase with
  | .idle => .next t
  | .tx1 => .refused .requestWhileBusy
  | .tx2 => .refused .requestWhileBusy

/-- Accepting a request whose operands are checked: ParameterError and no send if either bound is violated, else the
send of W_REG (spec R28 rows 1, 2, 4, 5; R83). -/
def acceptChecked (r : ReqWord) (c : ChannelOperand) (v : ValueOperand) (s : State) : State :=
  if valid c v then startSend .tx1 (wReg c v) (s.latch r) else complete .parameterError (s.latch r)

/-- Accepting a request whose word is sent verbatim (spec R28 row 3; R91). -/
def acceptVerbatim (r : ReqWord) (w : Word) (s : State) : State := startSend .tx1 w (s.latch r)

/-- The outstanding send's answer is taken if the transport has given one; else the block waits (spec R12, R42). -/
def awaitAnswer (s : State) : Host.Outcome State Fault Refusal :=
  match s.answers with
  | [] => .next (quiet s)
  | b :: rest => onTxDone b { s with answers := rest }

/-- The transaction of a command word on the transport port: if its send is the one outstanding, it goes on to the
transport's answer (spec R12, R29); no other command word is on the port (assumption log 12). -/
def transact (w : Word) (s : State) : Host.Outcome State Fault Refusal :=
  match s.phase with
  | .idle => .refused .commandWordNotOnTransport
  | .tx1 => if s.txWord = w then awaitAnswer s else .refused .commandWordNotOnTransport
  | .tx2 => if s.txWord = w then awaitAnswer s else .refused .commandWordNotOnTransport

/-- The input event the next step takes (spec R27, R31): reset first (assumption log 22); a request only in idle; an
answer only while a send is outstanding. -/
def nextEvent (s : State) : Option InputEvent :=
  if s.rst then some .reset
  else
    match s.phase with
    | .idle => s.requests.head?.map .req
    | .tx1 => s.answers.head?.map .txDone
    | .tx2 => s.answers.head?.map .txDone

/-- The inputs with one event taken from them. -/
def consume (e : InputEvent) (s : State) : State :=
  match e with
  | .req _ => { s with requests := s.requests.tail }
  | .txDone _ => { s with answers := s.answers.tail }
  | .reset => { s with rst := false }

end Sys2Proof.Machine
end

