-- ==== Sys2Proof/Machine/CommandWords.lean ====
section
/-! DEFINITION. The meanings of the two command-word layouts: the transaction of that word on the transport port
(spec R12, R29, R66; assumption log 12). -/

namespace Sys2Proof.Machine

/-- CW_REG: the send of the register-write word of `c` and `v` (spec R67, R69). -/
def execCwReg (c : BitVec 3) (v : BitVec 12) (s : State) : Host.Outcome State Fault Refusal :=
  transact (registerWriteLayout c v) s

/-- CW_EN: the send of the conforming enable word with mask `e` (spec R68, R71). -/
def execCwEn (e : BitVec 8) (s : State) : Host.Outcome State Fault Refusal :=
  transact (outputEnableLayout e) s

end Sys2Proof.Machine
end

