-- ==== Sys2Proof/Machine/Requests.lean ====
section
/-! DEFINITION. The meanings of the request instructions: the event `Req(r)` of each (spec R28). The rest of an
operation is the answer to its send, `onTxDone` (spec R29). -/

namespace Sys2Proof.Machine

/-- SCR, SetChannelRegister (spec R84; R28 rows 1 and 2). -/
def execScr (c : ChannelOperand) (v : ValueOperand) (s : State) : Host.Outcome State Fault Refusal :=
  whenIdle s (acceptChecked (requestWord 0b00#2 c v) c v s)

/-- SCO, SetChannelOutputs (spec R91, R92; R28 row 3). The channel field has no effect (spec R90) and is only kept in
`req_q`. -/
def execSco (c : ChannelOperand) (w : Word) (s : State) : Host.Outcome State Fault Refusal :=
  whenIdle s (acceptVerbatim (requestWord 0b01#2 c w) w s)

/-- SDO, SetDirectOutput: its first step is exactly SetChannelRegister (spec R99; R28 rows 4 and 5). -/
def execSdo (c : ChannelOperand) (v : ValueOperand) (s : State) : Host.Outcome State Fault Refusal :=
  whenIdle s (acceptChecked (requestWord 0b10#2 c v) c v s)

/-- RESERVED_OP3: "no send, no response and no next state are defined for it. A model refuses it" (spec R65). -/
def execReservedOp3 (_s : State) : Host.Outcome State Fault Refusal := .refused .reservedOperation

end Sys2Proof.Machine
end

