-- ==== Sys2Proof/Machine/Dispatch.lean ====
section
/-! DEFINITION. One arm per constructor of Instr. -/

namespace Sys2Proof.Machine

/-- The meaning of an instruction. -/
def exec (i : Instr) (s : State) : Host.Outcome State Fault Refusal :=
  match i with
  | .scr c v => Sys2Proof.Machine.execScr c v s
  | .sco c w => Sys2Proof.Machine.execSco c w s
  | .sdo c v => Sys2Proof.Machine.execSdo c v s
  | .reservedOp3 _ _ => Sys2Proof.Machine.execReservedOp3 s
  | .cwReg c v => Sys2Proof.Machine.execCwReg c v s
  | .cwEn e => Sys2Proof.Machine.execCwEn e s

end Sys2Proof.Machine
end

