-- ==== Sys2Proof/Machine/Events.lean ====
section
/-! DEFINITION. The step relation of the block on one input event (spec R27 to R31), and the placing of one word where
the step takes its next instruction. -/

namespace Sys2Proof.Machine

/-- What the block does on one input event, from any state (spec R28, R29, R30, R31). -/
def react (e : InputEvent) (s : State) : Host.Outcome State Fault Refusal :=
  match e with
  | .req r => exec (decodeRequest r) s
  | .txDone b => onTxDone b s
  | .reset => .next (onReset s)

/-- `Reset` as the model takes it: "as the launch state only" (spec R126). It is refused while an operation is in flight
(spec R116) and in Idle after the first request of the run (spec R126, U11); what the hardware does from every state
(spec R30) is `react .reset`. -/
def launch (s : State) : Host.Outcome State Fault Refusal :=
  match s.phase with
  | .idle => if s.started then .refused .resetAfterFirstRequest else react .reset s
  | .tx1 => .refused .resetInFlight
  | .tx2 => .refused .resetInFlight

/-- One step of the model: the block reacts to the next input event, or waits if there is none; a reset is only ever
the launch (spec R126). -/
def stepOnInputs (s : State) : Host.Outcome State Fault Refusal :=
  match nextEvent s with
  | none => .next (quiet s)
  | some .reset => launch (consume .reset s)
  | some (.req r) => react (.req r) (consume (.req r) s)
  | some (.txDone b) => react (.txDone b) (consume (.txDone b) s)

/-- The caller presents request `r` next, to an idle block (assumption log 18). -/
def placeRequest (r : ReqWord) (s : State) : State :=
  { s with phase := .idle, rst := false, requests := r :: s.requests }

/-- The word `w` stands on the transport port, its send outstanding as a SetChannelOutputs request would have left
it, and an answer to come (assumption log 18). -/
def placeCommandWord (w : Word) (s : State) : State :=
  { s with
    phase := .tx1
    reqQ := requestWord 0b01#2 0#8 w
    txStart := true
    txWord := w
    rspValid := false
    rst := false
    started := true
    answers := match s.answers with
      | [] => [.ok]
      | b :: rest => b :: rest }

/-- The instruction whose bits are `w`, placed where the next step takes it; bits of a width or value that no port
carries change nothing. -/
def placeWord (nbits w : Nat) (s : State) : State :=
  match readBits nbits w with
  | .ok (.request r) => placeRequest r s
  | .ok (.command c) => placeCommandWord c s
  | .error _ => s

end Sys2Proof.Machine
end

