-- ==== Sys2Proof/Machine/Step.lean ====
section
/-! DEFINITION. One step of the machine, and the placing of the instruction that the next step runs. -/

namespace Sys2Proof.Machine

/-- One step: one input event, or one wait (spec R27, R31). -/
def step (s : State) : Host.Outcome State Fault Refusal := stepOnInputs s

/-- `s` with the instruction whose bits are `w` placed where the step takes its next one (assumption log 18). -/
def State.withFetchWord (s : State) (nbits w : Nat) : State := placeWord nbits w s

end Sys2Proof.Machine
end

