-- ==== Sys2Proof/Machine/Device.lean ====
section
/-! DEFINITION. What the document claims of the device, an external agent (spec R57 to R61): usable only as named
assumptions, per operation and not per word. "A model of the block must not depend on them": no definition of the
machine uses this file (assumption log 19). -/

namespace Sys2Proof.Machine

/-- The device as far as the claims speak of it: `dev_reg`, `dev_en`, and the code each output shows
(spec R58, R59). -/
structure Device where
  regs : Vector (BitVec 12) 8
  enabled : Vector Bool 8
  shown : Vector (BitVec 12) 8
  deriving DecidableEq, Repr

/-- `dev_reg[c] <- v`, nothing else changes (spec R58). -/
def Device.writeRegister (c : ChannelOperand) (v : ValueOperand) (d : Device) : Device :=
  { d with regs := Vector.ofFn fun n => if n.val = c.toNat then v.setWidth 12 else d.regs[n] }

/-- For each `n` with `w[n] = 1`: `dev_en[n] <- 1` and output `n` shows `dev_reg[n]`; the others unchanged
(spec R59). -/
def Device.select (w : Word) (d : Device) : Device :=
  { d with
    enabled := Vector.ofFn fun n => w.getLsbD n.val || d.enabled[n]
    shown := Vector.ofFn fun n => if w.getLsbD n.val then d.regs[n] else d.shown[n] }

/-- What is claimed of the device before and after an operation with this result. ParameterError: nothing was sent,
nothing changed (spec R109). TransportError: nothing is claimed, any value (spec R48, U1). Ok: spec R58 for SCR, R59
for SCO with a conforming word (nothing for another word), R60 for SDO. The reserved code and a bare command word are
no operations, and nothing is claimed (spec R57, R61). -/
def Device.Claim (i : Instr) (result : OperationResult) (d d' : Device) : Prop :=
  match result with
  | .parameterError => d' = d
  | .transportError => True
  | .ok =>
    match i with
    | .scr c v => d' = d.writeRegister c v
    | .sco _ w => conforming w = true → d' = d.select w
    | .sdo c v => d' = (d.writeRegister c v).select (wEn1 c)
    | .reservedOp3 _ _ => True
    | .cwReg _ _ => True
    | .cwEn _ => True

end Sys2Proof.Machine
end

