-- ==== Sys2Proof/Machine/Operation.lean ====
section
/-! DEFINITION. The operation level, which is normative (spec R14): an operation as a function of its request and the
transport's answers (spec R32), and a program as a list of requests (spec R52, R79). -/

namespace Sys2Proof.Machine

/-- The words sent, the result, and the answers left over. -/
structure OperationRun where
  sent : List Word
  result : OperationResult
  left : List Answer
  deriving DecidableEq, Repr

/-- `b <- Send(w)`, then the operation ends with the answer's result; no value if the transport never answers
(spec R12, R138). -/
def lastSend (w : Word) : List Answer → Option OperationRun
  | [] => none
  | b :: rest => some ⟨[w], resultOf b, rest⟩

/-- `exec(r, a)` of spec R32. "Only as many answers are consumed as words are sent." No value for the reserved code
(spec R65), nor if an answer it waits for never comes (spec R138). -/
def operation (r : ReqWord) (a : List Answer) : Option OperationRun :=
  match opcode r with
  | .scr =>
    if valid (channelField r) (valueField r) then lastSend (wReg (channelField r) (valueField r)) a
    else some ⟨[], .parameterError, a⟩
  | .sco => lastSend (valueField r) a
  | .sdo =>
    if valid (channelField r) (valueField r) then
      match a with
      | [] => none
      | .fail :: rest => some ⟨[wReg (channelField r) (valueField r)], .transportError, rest⟩
      | .ok :: rest =>
        match lastSend (wEn1 (channelField r)) rest with
        | none => none
        | some run => some { run with sent := wReg (channelField r) (valueField r) :: run.sent }
    else some ⟨[], .parameterError, a⟩
  | .reserved => none

/-- The output events of one operation: its sends, then its response (spec R33). -/
def OperationRun.outputs (run : OperationRun) : List OutputEvent := run.sent.map .txStart ++ [.rsp run.result]

/-- The output events of a program, operation after operation, and the answers left over (spec R52, R79). -/
def program : List ReqWord → List Answer → Option (List OutputEvent × List Answer)
  | [], a => some ([], a)
  | r :: rs, a =>
    match operation r a with
    | none => none
    | some run =>
      match program rs run.left with
      | none => none
      | some (events, left) => some (run.outputs ++ events, left)

end Sys2Proof.Machine
end

