-- ==== Sys2Proof/Machine/Signals.lean ====
section
/-! DEFINITION. The signal-level binding of the ports (spec R26): the input pins at one rising edge, the event they
make, and the output pins of the cycle that follows. "No rule of any other file depends on this table", and nothing in
the step does. -/

namespace Sys2Proof.Machine

/-- The input pins as sampled at a rising edge of `clk` (spec R26). -/
structure InputPins where
  rst : Bool
  reqValid : Bool
  reqData : ReqWord
  txDone : Bool
  txOk : Bool
  deriving DecidableEq, Repr

/-- The output pins of a cycle (spec R26). -/
structure OutputPins where
  reqReady : Bool
  rspValid : Bool
  rspResult : BitVec 2
  txStart : Bool
  txWord : Word
  txTimeout : BitVec Config.timeoutWidth
  deriving DecidableEq, Repr

/-- The output pins of the cycle in which the block is in this state (spec R26, R108, R119). -/
def State.pins (s : State) : OutputPins :=
  { reqReady := s.reqReady
    rspValid := s.rspValid
    rspResult := resultCode s.rspResult
    txStart := s.txStart
    txWord := s.txWord
    txTimeout := Config.txTimeout }

/-- `tx_ok`: 1 = the send succeeded, 0 = it failed or timed out (spec R26). -/
def answerOfPin (txOk : Bool) : Answer := if txOk then .ok else .fail

/-- The event an edge makes, if any (spec R26): reset first; `Req` when valid meets ready; `TxDone` only when the phase
is not idle. -/
def sampleEvent (p : InputPins) (s : State) : Option InputEvent :=
  if p.rst then some .reset
  else
    match s.phase with
    | .idle => if p.reqValid then some (.req p.reqData) else none
    | .tx1 => if p.txDone then some (.txDone (answerOfPin p.txOk)) else none
    | .tx2 => if p.txDone then some (.txDone (answerOfPin p.txOk)) else none

/-- One rising edge of `clk`. An answer in the cycle of the start pulse it would answer is one "The transport must
not" give (spec R26), and is refused (assumption log 17). -/
def clockEdge (p : InputPins) (s : State) : Host.Outcome State Fault Refusal :=
  match sampleEvent p s with
  | none => .next (quiet s)
  | some (.req r) => react (.req r) s
  | some (.txDone b) => if s.txStart then .refused .answerInStartCycle else react (.txDone b) s
  | some .reset => react .reset s

end Sys2Proof.Machine
end

