-- ==== Sys2Proof/Machine/Trace.lean ====
section
/-! DEFINITION. What a run shows: for each step the input event it takes and the output event it emits
(spec R27). -/

namespace Sys2Proof.Machine

/-- One step as seen from outside. -/
structure Transition where
  input : Option InputEvent
  output : Option OutputEvent
  deriving DecidableEq, Repr

/-- The transitions of `k` steps and the state after them; no value if a step does not give a next state. -/
def traceRun : Nat → State → Option (List Transition × State)
  | 0, s => some ([], s)
  | k + 1, s =>
    match step s with
    | .next t =>
      match traceRun k t with
      | some (events, u) => some (⟨nextEvent s, t.output⟩ :: events, u)
      | none => none
    | .fault _ => none
    | .refused _ => none

/-- The transitions in which each of these inputs causes the output beside it. -/
def transitions (inputs : List InputEvent) (outputs : List OutputEvent) : List Transition :=
  List.zipWith (fun i o => ⟨some i, some o⟩) inputs outputs

/-- The output events of a list of transitions, in order. -/
def outputsOf (ts : List Transition) : List OutputEvent := ts.filterMap (·.output)

end Sys2Proof.Machine
end

