-- ==== Sys2Proof/Machine/Transport.lean ====
section
/-! DEFINITION. What the spec fixes of the bus the transport drives. The transport is outside the block (spec R5(a));
nothing in the step reads this file. -/

namespace Sys2Proof.Machine

/-- The bits of one send in the order they go on the bus: bit 15 first, bit 0 last (spec R44, R46). -/
def bitsOnBus (w : Word) : List Bool := (List.range 16).map fun k => w.getLsbD (15 - k)

/-- The word a receiver assembles from bits in bus order. -/
def wordFromBus (bits : List Bool) : Word := bits.foldl (fun w b => (w <<< 1) ||| (BitVec.ofBool b).setWidth 16) 0#16

/-- The bus configuration of a transport (spec R45, R127). -/
structure BusFraming where
  wordSize : Nat
  clockIdleHigh : Bool
  sampleOnFirstEdge : Bool
  chipSelectForWholeTransfer : Bool
  msbFirst : Bool
  deriving DecidableEq, Repr

/-- "bus word size 16, clock idle-low, data sampled on first clock edge, chip-select asserted for the duration of the
transfer", most significant bit first: preconditions, "not negotiated per call" (spec R44, R45, R127(1)). -/
def requiredFraming : BusFraming :=
  { wordSize := 16, clockIdleHigh := false, sampleOnFirstEdge := true, chipSelectForWholeTransfer := true, msbFirst := true }

end Sys2Proof.Machine
end

