-- ==== Sys2Proof/Safety.lean ====
section
/-! DEFINITION. What claims take for granted and what they promise: the block's invariant, the caller's duties, the end
of a run. -/

namespace Sys2Proof.Safety

open Sys2Proof.Machine

/-- What holds in every state the block can be in. In Tx1 the request has a first send and its word is on the port
(spec R28); Tx2 is reached only by a validated SDO, with its enable word on the port (spec R29, R101); a start pulse
only outside idle, a response pulse only in idle (spec R28, R29). -/
abbrev BlockInv (s : State) : Prop :=
  (s.phase = .tx1 → firstSend s.reqQ = some s.txWord) ∧
  (s.phase = .tx2 →
    opcode s.reqQ = .sdo ∧ valid (channelField s.reqQ) (valueField s.reqQ) = true ∧
      s.txWord = wEn1 (channelField s.reqQ)) ∧
  (s.txStart = true → s.phase ≠ .idle) ∧
  (s.rspValid = true → s.phase = .idle)

/-- The caller's duties as premises (spec R38): no request carries the reserved code (R65), no reset is asserted
(R126, even as the launch). -/
abbrev Admitted (s : State) : Prop :=
  s.rst = false ∧ ∀ r ∈ s.requests, (decodeRequest r).admitted = true

/-- The record of the run is right: an operation in flight or a response on the port comes of an accepted request
(spec R28, R34, R126). -/
abbrev RunRecord (s : State) : Prop := s.phase ≠ .idle ∨ s.rspValid = true → s.started = true

/-- Two states that no observer of the ports can tell apart, now or later: the same phase and inputs to come, the same
request while an operation is in flight (spec R18, R23), and, where a reset is asserted, the same record of the run
(assumption log 11). Everything else may differ. -/
abbrev SeenAlike (s s' : State) : Prop :=
  s'.phase = s.phase ∧ s'.requests = s.requests ∧ s'.answers = s.answers ∧ s'.rst = s.rst ∧
  (s.rst = true → s'.started = s.started) ∧ (s.phase ≠ .idle → s'.reqQ = s.reqQ)

/-- The end of a run: the last request's response has been emitted (spec R34). "A state with `phase` not `Idle` is
never the end of a run." -/
abbrev Ended (s : State) : Prop := s.phase = .idle ∧ s.requests = []

/-- The bounds of spec R74 and R83, spelled out. -/
abbrev InRange (c : ChannelOperand) (v : ValueOperand) : Prop := c.toNat ≤ 7 ∧ v.toNat ≤ 4095

/-- The state right after `Rsp(result)`: the response pulse, nothing started, idle (spec R34). -/
abbrev Responded (result : OperationResult) (t : State) : Prop :=
  t.phase = .idle ∧ t.txStart = false ∧ t.rspValid = true ∧ t.rspResult = result

/-- The state right after `TxStart(w)` for request `r`: the start pulse with the word, no response, phase `p`. -/
abbrev Started (p : Phase) (r : ReqWord) (w : Word) (t : State) : Prop :=
  t.phase = p ∧ t.reqQ = r ∧ t.txStart = true ∧ t.txWord = w ∧ t.rspValid = false

/-- The inputs that are still to come are the same. -/
abbrev InputsKept (s t : State) : Prop := t.requests = s.requests ∧ t.answers = s.answers ∧ t.rst = s.rst

/-- The result an answer gives the operation it ends (spec R84, R91, R99). -/
abbrev EndsWith (b : Answer) (result : OperationResult) : Prop :=
  (b = .ok ∧ result = .ok) ∨ (b = .fail ∧ result = .transportError)

end Sys2Proof.Safety
end

