-- ==== Sys2Proof/Certificates/Slice0/Obligations.lean ====
section
/-! DEFINITION. The statements for the provers. -/

open Sys2Proof Sys2Proof.Machine Sys2Proof.Safety

/-- Spec R37, R124: after reset the block is idle and ready, owes no response, has started no send, and `tx_timeout`
is the constant. (The values of `req_q`, `tx_word`, `rsp_result` are the model's choice, log 5 to 7: not stated.) -/
def Obligations.ResetLeavesBlockIdleReadyAndSilent : Prop :=
  State.reset.phase = .idle ∧ State.reset.pins.reqReady = true ∧ State.reset.pins.rspValid = false ∧
    State.reset.pins.txStart = false ∧ State.reset.pins.txTimeout = Config.txTimeout ∧ State.reset.output = none

/-- The invariant of `StepKeepsInvariant` holds at reset. -/
def Obligations.ResetStateMeetsInvariant : Prop := BlockInv State.reset

/-- Words written out from the encodings of spec R62, R63, R65, R67, R68 (vectors of 95_test_vectors.md 2.5 and 2.2)
decode to the instructions they stand for, and words of no format to none. Two things are the model's choice: that
`0xA007`, a word of both layouts, is read as CW_EN and not as CW_REG (log 13), and that raw bits of width 16, 26 and 32
are read as words at all, 16 as a command word, the others as a request (log 23). -/
def Obligations.SampleWordsDecode : Prop :=
  decodeTableWord 32 0x0000FFF = some (.scr 0#8 4095#16) ∧
  decodeTableWord 26 0x1FFA007 = some (.sco 255#8 0xA007#16) ∧
  decodeTableWord 32 0x2FFFFFF = some (.sdo 255#8 0xFFFF#16) ∧
  decodeTableWord 32 0x3000000 = some (.reservedOp3 0#8 0#16) ∧
  decodeTableWord 16 0xC7FF = some (.cwReg 4#3 0x7FF#12) ∧
  decodeTableWord 16 0xA007 = some (.cwEn 0x07#8) ∧
  decodeTableWord 16 0xA100 = some (.cwReg 2#3 0x100#12) ∧
  decodeTableWord 16 0x0007 = none ∧
  decodeTableWord 32 0x4000000 = none

/-- Spec R64: decoding is a case on `req[25:24]` alone, takes the operands as they stand, and does not fail for the
three operations, whose out-of-range operands are well formed and complete with ParameterError. -/
def Obligations.RequestDecodingIsATwoBitCase : Prop :=
  (∀ r : ReqWord,
    (opField r = 0b00#2 → decodeRequest r = .scr (channelField r) (valueField r)) ∧
    (opField r = 0b01#2 → decodeRequest r = .sco (channelField r) (valueField r)) ∧
    (opField r = 0b10#2 → decodeRequest r = .sdo (channelField r) (valueField r)) ∧
    (opField r = 0b11#2 → decodeRequest r = .reservedOp3 (channelField r) (valueField r)) ∧
    (opField r ≠ 0b11#2 → (decodeRequest r).wellFormed = true)) ∧
  (∀ r r' : ReqWord, opField r = opField r' → opcode r = opcode r') ∧
  (∀ (r : ReqWord) (s : State), opField r = 0b00#2 ∨ opField r = 0b10#2 → s.phase = .idle →
    ¬ InRange (channelField r) (valueField r) →
    ∃ t, exec (decodeRequest r) s = .next t ∧ Responded .parameterError t)

/-- Spec R62, R63, R67, R68: decoding the encoding of an instruction gives it back, for every well-formed instruction
and for the reserved code; the one aliased family (R78(a)) decodes to the enable word with the same bits (log 13). -/
def Obligations.DecodeOfEncodeGivesTheInstruction : Prop :=
  (∀ i : Instr, i.wellFormed = true → decode (encode i) = .ok i) ∧
  (∀ c v, decode (encode (.reservedOp3 c v)) = .ok (.reservedOp3 c v)) ∧
  (∀ v : BitVec 12, v.toNat < 256 → decode (encode (.cwReg 2#3 v)) = .ok (.cwEn (v.setWidth 8)))

/-- The other direction: each word that decodes is the encoding of what it decodes to, so no bit of a word is
dropped. -/
def Obligations.EncodeOfDecodeGivesTheWord : Prop :=
  ∀ (e : EncodedWord) (i : Instr), decode e = .ok i → encode i = e

/-- A step of an idle block with a request presented and no reset asserted is the meaning of the decoded request, in
the state with that request taken from the caller (spec R28, R56); the caller's requests are an input list of State
(log 1). -/
def Obligations.StepRunsTheAcceptedRequest : Prop :=
  ∀ (s : State) (r : ReqWord) (rest : List ReqWord), s.rst = false → s.phase = .idle → s.requests = r :: rest →
    step s = exec (decodeRequest r) { s with requests := rest }

/-- A step with a send outstanding and no reset asserted is the meaning of the command word on the transport port,
where that word has a layout (spec R29; log 12). -/
def Obligations.StepRunsTheOutstandingCommandWord : Prop :=
  ∀ (s : State) (i : Instr), s.rst = false → s.phase ≠ .idle → decodeCommand s.txWord = .ok i → step s = exec i s

/-- `withFetchWord` places exactly the decoded instruction: the next step is its meaning, from the given state for a
request, from the placed state for a command word. What placing sets is the model's choice (log 18), and so are the
widths of raw bits: 26, the request's own (R62), 32, padded to bytes, and 16 (log 23). -/
def Obligations.FetchWordRunsTheDecodedInstruction : Prop :=
  (∀ (s : State) (nbits w : Nat) (i : Instr), nbits = 26 ∨ nbits = 32 → decodeTableWord nbits w = some i →
    step (s.withFetchWord nbits w) = exec i { s with phase := .idle, rst := false }) ∧
  (∀ (s : State) (w : Nat) (i : Instr), decodeTableWord 16 w = some i →
    step (s.withFetchWord 16 w) = exec i (s.withFetchWord 16 w))

/-- Spec R70: on validated operands the masks change nothing, and W_REG has the closed form, as an OR and as a sum. -/
def Obligations.RegisterWriteWordClosedForm : Prop :=
  ∀ (c : ChannelOperand) (v : ValueOperand), InRange c v →
    c &&& 0x7#8 = c ∧ v &&& 0xFFF#16 = v ∧
    wReg c v = 0x8000#16 ||| (c.setWidth 16 <<< 12) ||| v ∧
    (wReg c v).toNat = 0x8000 + 0x1000 * c.toNat + v.toNat

/-- Spec R67: the fields of the register-write layout, and every word with bit 15 set is the register-write word of
exactly one pair, `word[14:12]` and `word[11:0]`. -/
def Obligations.RegisterWriteLayoutIsOnePairPerWord : Prop :=
  (∀ (c : BitVec 3) (v : BitVec 12),
    (registerWriteLayout c v).getLsbD 15 = true ∧ (registerWriteLayout c v).extractLsb' 12 3 = c ∧
      (registerWriteLayout c v).extractLsb' 0 12 = v) ∧
  (∀ (c : ChannelOperand) (v : ValueOperand), wReg c v = registerWriteLayout (c.setWidth 3) (v.setWidth 12)) ∧
  (∀ w : Word, w.getLsbD 15 = true → ∀ (c : BitVec 3) (v : BitVec 12),
    registerWriteLayout c v = w ↔ c = w.extractLsb' 12 3 ∧ v = w.extractLsb' 0 12)

/-- Spec R69, R71, R73: the two formulas computed over the unbounded naturals give the same words, so no intermediate
loses a bit. -/
def Obligations.WordArithmeticLosesNoBit : Prop :=
  (∀ (c : ChannelOperand) (v : ValueOperand),
    (wReg c v).toNat = (0x8 <<< 12) ||| ((c.toNat &&& 0x7) <<< 12) ||| (v.toNat &&& 0xFFF) ∧
    (c.toNat &&& 0x7) <<< 12 ≤ 0x7000 ∧ v.toNat &&& 0xFFF ≤ 0x0FFF) ∧
  (∀ c : ChannelOperand, c.toNat ≤ 7 →
    (wEn1 c).toNat = 0xA000 ||| (1 <<< c.toNat) ∧ 1 <<< c.toNat ≤ 0x0080)

/-- Spec R71: for channels 0 to 7 the enable word is `0xA000 | (1 << c)`, conforming, with exactly bit `c` of `[7:0]`
set. -/
def Obligations.SingleChannelEnableWord : Prop :=
  ∀ c : ChannelOperand, c.toNat ≤ 7 →
    wEn1 c = 0xA000#16 ||| (1#16 <<< c.toNat) ∧ conforming (wEn1 c) = true ∧
    (∀ n, n ≤ 7 → ((wEn1 c).getLsbD n = true ↔ n = c.toNat)) ∧
    wEn1 c ∈ [0xA001#16, 0xA002#16, 0xA004#16, 0xA008#16, 0xA010#16, 0xA020#16, 0xA040#16, 0xA080#16]

/-- Spec R74: a request's operands are valid exactly when `req[23:19]` and `req[15:12]` are zero; SCO sends its operand
without the check, SCR and SDO have a send exactly if it holds. -/
def Obligations.ValidationReadsTheUpperBits : Prop :=
  ∀ r : ReqWord,
    (valid (channelField r) (valueField r) = true ↔ (channelField r).toNat ≤ 7 ∧ (valueField r).toNat ≤ 4095) ∧
    (valid (channelField r) (valueField r) = true ↔ r.extractLsb' 19 5 = 0b00000#5 ∧ r.extractLsb' 12 4 = 0b0000#4) ∧
    (opField r = 0b01#2 → firstSend r = some (valueField r)) ∧
    (opField r = 0b00#2 ∨ opField r = 0b10#2 →
      (firstSend r ≠ none ↔ valid (channelField r) (valueField r) = true))

/-- Spec R78: (a) small values on channel 2 make conforming enable words with that mask, which an SCO request sends
too; (b) every single-channel enable word is a register-write word of channel 2; (c) every conforming enable word has
the register-write pattern. -/
def Obligations.LayoutsAliasOnChannelTwo : Prop :=
  (∀ v : ValueOperand, v.toNat ≤ 255 →
    wReg 2#8 v = 0xA000#16 ||| v ∧ conforming (wReg 2#8 v) = true ∧
    (wReg 2#8 v).extractLsb' 0 8 = v.setWidth 8 ∧
    firstSend (requestWord 0b00#2 2#8 v) = firstSend (requestWord 0b01#2 0#8 (0xA000#16 ||| v))) ∧
  (∀ c : ChannelOperand, c.toNat ≤ 7 → wEn1 c = wReg 2#8 (1#16 <<< c.toNat)) ∧
  (∀ w : Word, conforming w = true → w.getLsbD 15 = true ∧ w = registerWriteLayout 2#3 (w.extractLsb' 0 12))

/-- Spec R50: the channel map, row by row: the register-write word, the single-channel enable word and the flag of each
channel. -/
def Obligations.ChannelMapRows : Prop :=
  ∀ (c : ChannelOperand) (base enable flag : Word),
    (c, base, enable, flag) ∈
      [(0#8, 0x8000#16, 0xA001#16, 0x01#16), (1#8, 0x9000#16, 0xA002#16, 0x02#16),
       (2#8, 0xA000#16, 0xA004#16, 0x04#16), (3#8, 0xB000#16, 0xA008#16, 0x08#16),
       (4#8, 0xC000#16, 0xA010#16, 0x10#16), (5#8, 0xD000#16, 0xA020#16, 0x20#16),
       (6#8, 0xE000#16, 0xA040#16, 0x40#16), (7#8, 0xF000#16, 0xA080#16, 0x80#16)] →
    wEn1 c = enable ∧ channelFlag c.toNat = flag ∧
    ∀ v : ValueOperand, v.toNat ≤ 4095 →
      wReg c v = base ||| v ∧ (wReg c v).extractLsb' 12 4 = 0x8#4 + c.setWidth 4

/-- Spec R76: the tag OR-ed with the flags of a set of channels is a conforming enable word whose mask selects exactly
that set. -/
def Obligations.EnableWordOfAChannelSet : Prop :=
  (∀ S : List (Fin 8), conforming (enableWordFor S) = true ∧
    ∀ n : Fin 8, (enableWordFor S).getLsbD n.val = true ↔ n ∈ S) ∧
  enableWordFor [0, 1, 2] = 0xA007#16

/-- Spec R40(b): the first sends of SCR and SDO are exactly the words with bit 15 set; SCO sends every word. -/
def Obligations.ReachableCommandWords : Prop :=
  (∀ w : Word, w.getLsbD 15 = true ↔ ∃ c v, firstSend (requestWord 0b00#2 c v) = some w) ∧
  (∀ w : Word, w.getLsbD 15 = true ↔ ∃ c v, firstSend (requestWord 0b10#2 c v) = some w) ∧
  (∀ w : Word, ∀ c, firstSend (requestWord 0b01#2 c w) = some w)

/-- Spec R28: the steps from Idle on `Req(r)`, row by row. -/
def Obligations.AcceptanceFollowsTheRequestTable : Prop :=
  ∀ (s : State) (r : ReqWord), s.phase = .idle →
    ((opField r = 0b00#2 ∨ opField r = 0b10#2) → ¬ InRange (channelField r) (valueField r) →
      ∃ t, react (.req r) s = .next t ∧ t.output = some (.rsp .parameterError) ∧ t.phase = .idle) ∧
    ((opField r = 0b00#2 ∨ opField r = 0b10#2) → InRange (channelField r) (valueField r) →
      ∃ t, react (.req r) s = .next t ∧
        t.output = some (.txStart (wReg (channelField r) (valueField r))) ∧ t.phase = .tx1 ∧ t.reqQ = r) ∧
    (opField r = 0b01#2 →
      ∃ t, react (.req r) s = .next t ∧ t.output = some (.txStart (valueField r)) ∧ t.phase = .tx1 ∧ t.reqQ = r) ∧
    (opField r = 0b11#2 → ∀ t, react (.req r) s ≠ .next t)

/-- Spec R29: the steps from Tx1 and Tx2 on `TxDone(b)`, row by row, and Tx2 is reached only by an SDO. -/
def Obligations.AnswersFollowTheSendTable : Prop :=
  (∀ s : State, s.phase = .tx1 →
    (∃ t, react (.txDone .fail) s = .next t ∧ t.output = some (.rsp .transportError) ∧ t.phase = .idle) ∧
    ((opcode s.reqQ = .scr ∨ opcode s.reqQ = .sco) →
      ∃ t, react (.txDone .ok) s = .next t ∧ t.output = some (.rsp .ok) ∧ t.phase = .idle) ∧
    (opcode s.reqQ = .sdo →
      ∃ t, react (.txDone .ok) s = .next t ∧ t.output = some (.txStart (wEn1 (channelField s.reqQ))) ∧
        t.phase = .tx2 ∧ t.reqQ = s.reqQ)) ∧
  (∀ s : State, s.phase = .tx2 →
    (∃ t, react (.txDone .fail) s = .next t ∧ t.output = some (.rsp .transportError) ∧ t.phase = .idle) ∧
    (∃ t, react (.txDone .ok) s = .next t ∧ t.output = some (.rsp .ok) ∧ t.phase = .idle)) ∧
  (∀ (s t : State) (e : InputEvent), react e s = .next t → t.phase = .tx2 →
    s.phase = .tx1 ∧ e = .txDone .ok ∧ opcode s.reqQ = .sdo ∧ opcode t.reqQ = .sdo)

/-- Spec R30: Reset, from any state: no output event, next state Idle, the operation in flight abandoned; the inputs
are not the block's and stay. -/
def Obligations.ResetEventIdlesTheBlockSilently : Prop :=
  ∀ s : State, ∃ t, react .reset s = .next t ∧ t.output = none ∧ t.phase = .idle ∧ InputsKept s t

/-- Spec R31: (a) no request is taken in Tx1 or Tx2; (b) no answer is taken in Idle, and the hardware ignores one;
(c) an output event comes only of a request or an answer, and is the one the tables of R28 and R29 give: an SDO in Tx1
answered ok starts its second send and gives no response, and every other answer outside Idle gives the response. -/
def Obligations.NoOtherStepsExist : Prop :=
  (∀ (s : State) (r : ReqWord), s.phase ≠ .idle →
    nextEvent s ≠ some (.req r) ∧ ∀ t, react (.req r) s ≠ .next t) ∧
  (∀ (s : State) (b : Answer), s.phase = .idle → nextEvent s ≠ some (.txDone b) ∧
    ∃ t, react (.txDone b) s = .next t ∧ t.output = none ∧ t.phase = .idle) ∧
  (∀ s t : State, step s = .next t → t.output ≠ none →
    (∃ r, s.phase = .idle ∧ nextEvent s = some (.req r) ∧
      ((firstSend r = none ∧ t.output = some (.rsp .parameterError)) ∨
        ∃ w, firstSend r = some w ∧ t.output = some (.txStart w))) ∨
    (∃ b, s.phase ≠ .idle ∧ nextEvent s = some (.txDone b) ∧
      (((s.phase = .tx2 ∨ opcode s.reqQ ≠ .sdo ∨ b = .fail) ∧
          ∃ result, EndsWith b result ∧ t.output = some (.rsp result)) ∨
        (s.phase = .tx1 ∧ b = .ok ∧ opcode s.reqQ = .sdo ∧
          t.output = some (.txStart (wEn1 (channelField s.reqQ)))))))

/-- Spec R116, R126, U11: the model refuses a reset during an operation and one after the first request of the run, and
takes one as the launch. What tells the first request is the model's own record of the run (log 11). That a reset
asserted together with a presented request comes first, and leaves the request with the caller, is the model's choice
(log 22). -/
def Obligations.StepRefusesResetInFlight : Prop :=
  ∀ s : State, s.rst = true →
    (s.phase ≠ .idle → step s = .refused .resetInFlight) ∧
    (s.phase = .idle → s.started = true → step s = .refused .resetAfterFirstRequest) ∧
    (s.phase = .idle → s.started = false → ∃ t, step s = .next t ∧ t.phase = .idle ∧ t.output = none ∧
      t.rst = false ∧ t.started = false ∧ t.requests = s.requests ∧ t.answers = s.answers)

/-- Spec R84: SetChannelRegister, from its request to its response. -/
def Obligations.SetChannelRegisterRun : Prop :=
  ∀ (s : State) (r : ReqWord) (rest : List ReqWord), s.rst = false → s.phase = .idle → s.requests = r :: rest →
    opField r = 0b00#2 →
    (¬ InRange (channelField r) (valueField r) →
      ∃ t, traceRun 1 s = some ([⟨some (.req r), some (.rsp .parameterError)⟩], t) ∧
        t.phase = .idle ∧ t.requests = rest ∧ t.answers = s.answers) ∧
    (InRange (channelField r) (valueField r) → ∀ (b : Answer) (more : List Answer), s.answers = b :: more →
      ∃ t result, EndsWith b result ∧
        traceRun 2 s = some ([⟨some (.req r), some (.txStart (wReg (channelField r) (valueField r)))⟩,
          ⟨some (.txDone b), some (.rsp result)⟩], t) ∧
        t.phase = .idle ∧ t.requests = rest ∧ t.answers = more)

/-- Spec R91: SetChannelOutputs, from its request to its response: the operand, verbatim, one send; the channel field
is not looked at. -/
def Obligations.SetChannelOutputsRun : Prop :=
  ∀ (s : State) (r : ReqWord) (rest : List ReqWord), s.rst = false → s.phase = .idle → s.requests = r :: rest →
    opField r = 0b01#2 → ∀ (b : Answer) (more : List Answer), s.answers = b :: more →
      ∃ t result, EndsWith b result ∧
        traceRun 2 s = some ([⟨some (.req r), some (.txStart (valueField r))⟩,
          ⟨some (.txDone b), some (.rsp result)⟩], t) ∧
        t.phase = .idle ∧ t.requests = rest ∧ t.answers = more

/-- Spec R99 and the table of R100: SetDirectOutput, from its request to its response, in each of the four cases. -/
def Obligations.SetDirectOutputRun : Prop :=
  ∀ (s : State) (r : ReqWord) (rest : List ReqWord), s.rst = false → s.phase = .idle → s.requests = r :: rest →
    opField r = 0b10#2 →
    (¬ InRange (channelField r) (valueField r) →
      ∃ t, traceRun 1 s = some ([⟨some (.req r), some (.rsp .parameterError)⟩], t) ∧
        t.phase = .idle ∧ t.requests = rest ∧ t.answers = s.answers) ∧
    (InRange (channelField r) (valueField r) → ∀ more : List Answer, s.answers = .fail :: more →
      ∃ t, traceRun 2 s = some ([⟨some (.req r), some (.txStart (wReg (channelField r) (valueField r)))⟩,
          ⟨some (.txDone .fail), some (.rsp .transportError)⟩], t) ∧
        t.phase = .idle ∧ t.requests = rest ∧ t.answers = more) ∧
    (InRange (channelField r) (valueField r) → ∀ (b : Answer) (more : List Answer), s.answers = .ok :: b :: more →
      ∃ t result, EndsWith b result ∧
        traceRun 3 s = some ([⟨some (.req r), some (.txStart (wReg (channelField r) (valueField r)))⟩,
          ⟨some (.txDone .ok), some (.txStart (0xA000#16 ||| (1#16 <<< (channelField r).toNat)))⟩,
          ⟨some (.txDone b), some (.rsp result)⟩], t) ∧
        t.phase = .idle ∧ t.requests = rest ∧ t.answers = more)

/-- Spec R65: a request with `op = 0b11` is refused from every state, as itself and not as ParameterError: no send, no
response, no next state. -/
def Obligations.ReservedOperationIsRefused : Prop :=
  (∀ (s : State) (c : ChannelOperand) (v : ValueOperand), exec (.reservedOp3 c v) s = .refused .reservedOperation) ∧
  (∀ (s : State) (r : ReqWord) (rest : List ReqWord), s.rst = false → s.phase = .idle → s.requests = r :: rest →
    opField r = 0b11#2 → step s = .refused .reservedOperation)

/-- Spec R28, R83, R91, R115: on every idle block each request instruction answers a next state, whatever the operands
and whatever went before: the response ParameterError, or the start of its send, with the request latched. -/
def Obligations.RequestInstructionsComplete : Prop :=
  ∀ (s : State) (c : ChannelOperand) (v : ValueOperand), s.phase = .idle →
    (¬ InRange c v →
      (∃ t, exec (.scr c v) s = .next t ∧ Responded .parameterError t) ∧
      (∃ t, exec (.sdo c v) s = .next t ∧ Responded .parameterError t)) ∧
    (InRange c v →
      (∃ t, exec (.scr c v) s = .next t ∧ Started .tx1 (requestWord 0b00#2 c v) (wReg c v) t) ∧
      (∃ t, exec (.sdo c v) s = .next t ∧ Started .tx1 (requestWord 0b10#2 c v) (wReg c v) t)) ∧
    (∃ t, exec (.sco c v) s = .next t ∧ Started .tx1 (requestWord 0b01#2 c v) v t)

/-- CW_REG and CW_EN (log 12; spec R12, R29): the word whose send is outstanding goes on to the transport's answer, and
then as the table of R29 says; without an answer it waits. The one case without a row, an ok to a send of a reserved
request, is refused by name (log 14). -/
def Obligations.CommandWordSendCompletes : Prop :=
  ∀ (s : State) (i : Instr) (w : Word), (∃ c v, i = .cwReg c v) ∨ (∃ e, i = .cwEn e) → encode i = .command w →
    s.txWord = w →
    (∀ (b : Answer) (more : List Answer), s.answers = b :: more →
      (s.phase = .tx2 ∨ (s.phase = .tx1 ∧ (opcode s.reqQ = .scr ∨ opcode s.reqQ = .sco ∨ b = .fail)) →
        ∃ t result, EndsWith b result ∧ exec i s = .next t ∧ Responded result t ∧ t.answers = more) ∧
      (s.phase = .tx1 → opcode s.reqQ = .sdo → b = .ok →
        ∃ t, exec i s = .next t ∧ Started .tx2 s.reqQ (wEn1 (channelField s.reqQ)) t ∧ t.answers = more) ∧
      (s.phase = .tx1 → opcode s.reqQ = .reserved → b = .ok → exec i s = .refused .reservedOperation)) ∧
    (s.phase ≠ .idle → s.answers = [] →
      ∃ t, exec i s = .next t ∧ t.phase = s.phase ∧ t.reqQ = s.reqQ ∧ t.txWord = w ∧ t.output = none)

/-- The model's choice (log 12; spec R31(c), R118): a command word whose send is not outstanding is refused. -/
def Obligations.CommandWordElsewhereIsRefused : Prop :=
  ∀ (s : State) (i : Instr) (w : Word), encode i = .command w → (s.phase = .idle ∨ s.txWord ≠ w) →
    exec i s = .refused .commandWordNotOnTransport

/-- Frame of SCR, SCO and SDO: the inputs to come are untouched, the request is latched where a send was started, and
no response of an earlier operation is left on the port beside a started send (spec R28, R56). Two clauses are about the
model's own fields: exactly one free value is drawn (`freeCount`, log 8) and the run has its first request (`started`,
log 11). -/
def Obligations.RequestInstructionFrame : Prop :=
  ∀ (s t : State) (i : Instr) (r : ReqWord), encode i = .request r → exec i s = .next t →
    InputsKept s t ∧ t.freeCount = s.freeCount + 1 ∧ t.started = true ∧ (t.phase = .tx1 → t.reqQ = r) ∧
    (t.txStart = true ↔ t.rspValid = false)

/-- Frame of CW_REG and CW_EN: requests and reset untouched, at most one answer taken, the latched request kept until
the response (spec R23, R56), the word held while the answer is awaited (spec R26). That the rows mean the transaction
of their word is the model's choice (log 12). Two clauses are about the model's own fields: exactly one free value is
drawn (`freeCount`, log 8) and the record of the run stays (`started`, log 11). -/
def Obligations.CommandWordFrame : Prop :=
  ∀ (s t : State) (i : Instr) (w : Word), encode i = .command w → exec i s = .next t →
    t.requests = s.requests ∧ t.rst = s.rst ∧ t.answers = s.answers.tail ∧ t.freeCount = s.freeCount + 1 ∧
    t.started = s.started ∧ (t.phase ≠ .idle → t.reqQ = s.reqQ) ∧ (s.answers = [] → t.phase = s.phase ∧ t.txWord = s.txWord)

/-- Spec R31(a), R129, R135: a busy block takes no request: the meaning is refused, and a step leaves the caller's
requests where they are (DEDUCED, log 15). -/
def Obligations.BusyBlockTakesNoRequest : Prop :=
  (∀ (s : State) (c : ChannelOperand) (v : ValueOperand), s.phase ≠ .idle →
    exec (.scr c v) s = .refused .requestWhileBusy ∧ exec (.sco c v) s = .refused .requestWhileBusy ∧
    exec (.sdo c v) s = .refused .requestWhileBusy) ∧
  (∀ s t : State, s.phase ≠ .idle → step s = .next t → t.requests = s.requests)

/-- Spec R12, R26, R42: while the transport has not answered, a step changes nothing of the operation: phase, request
and word stay, nothing is emitted (DEDUCED, log 2). -/
def Obligations.WaitingSendHoldsItsWord : Prop :=
  ∀ s : State, s.rst = false → s.phase ≠ .idle → s.answers = [] →
    ∃ t, step s = .next t ∧ t.phase = s.phase ∧ t.reqQ = s.reqQ ∧ t.txWord = s.txWord ∧ t.output = none ∧
      InputsKept s t

/-- The block's invariant (Safety.lean; spec R28, R29, R101) is kept by every step. -/
def Obligations.StepKeepsInvariant : Prop :=
  ∀ s t : State, BlockInv s → step s = .next t → BlockInv t

/-- Whole-machine rule (spec R38, R64, R116): from every state of the invariant, with a caller that keeps its duties, a
step always answers a next state, where all of this holds again: nothing is refused. -/
def Obligations.AdmittedStepAnswersNext : Prop :=
  ∀ s : State, BlockInv s → Admitted s → ∃ t, step s = .next t ∧ BlockInv t ∧ Admitted t

/-- Spec R33: the steps refine the operation level: the sends of `exec(r, a)` in order, each after the previous one's
answer, then exactly one response, and the block is idle again; 0, 1 or 2 sends. -/
def Obligations.StepsRefineTheOperation : Prop :=
  ∀ (s : State) (r : ReqWord) (rest : List ReqWord) (run : OperationRun), s.rst = false → s.phase = .idle →
    s.requests = r :: rest → operation r s.answers = some run →
    run.sent.length ≤ 2 ∧
    ∃ t, traceRun (run.sent.length + 1) s =
        some (transitions (.req r :: (s.answers.take run.sent.length).map .txDone) run.outputs, t) ∧
      t.phase = .idle ∧ t.rst = false ∧ t.requests = rest ∧ t.answers = run.left

/-- Spec R52: over a whole program the words on the transport and the responses are those of its operations, one after
another in request order, and the run has ended (R34). -/
def Obligations.ProgramRunIsItsOperationsInOrder : Prop :=
  ∀ (s : State) (events : List OutputEvent) (left : List Answer), s.rst = false → s.phase = .idle →
    program s.requests s.answers = some (events, left) →
    ∃ ts t, traceRun events.length s = some (ts, t) ∧ outputsOf ts = events ∧ Ended t ∧ t.answers = left

/-- Spec R18, R115, U12: from idle, what a run takes and emits depends only on the inputs, never on anything an earlier
operation left in the block. Where a reset is asserted the model's record of the run has to agree too, because it is
what the refusal of a mid-run reset goes by (R126, log 11). -/
def Obligations.BehaviourDependsOnlyOnTheInputs : Prop :=
  ∀ s s' : State, s.phase = .idle → s'.phase = .idle → s'.requests = s.requests → s'.answers = s.answers →
    s'.rst = s.rst → (s.rst = true → s'.started = s.started) → ∀ n, (traceRun n s).map Prod.fst = (traceRun n s').map Prod.fst

/-- Spec R138: an operation ends within two answers if the transport gives them (the premise named after the rule), and
a transport that never answers hangs it: no number of steps ends it. -/
def Obligations.OperationEndsWithinTwoAnswers : Prop :=
  ∀ s : State, BlockInv s → s.rst = false →
    (s.phase ≠ .idle → 2 ≤ s.answers.length →
      ∃ n ts t, n ≤ 2 ∧ traceRun n s = some (ts, t) ∧ t.phase = .idle ∧ t.rspValid = true) ∧
    (∀ r rest, s.phase = .idle → s.requests = r :: rest → (decodeRequest r).admitted = true → 2 ≤ s.answers.length →
      ∃ n ts t, n ≤ 3 ∧ traceRun n s = some (ts, t) ∧ t.phase = .idle ∧ t.rspValid = true ∧ t.requests = rest) ∧
    (s.phase ≠ .idle → s.answers = [] → ∀ n, ∃ ts t, traceRun n s = some (ts, t) ∧ t.phase = s.phase)

/-- Spec R53: what a response says of the operation's sends and answers. -/
def Obligations.ResponseTellsWhatWasAnswered : Prop :=
  ∀ (r : ReqWord) (a : List Answer) (run : OperationRun), operation r a = some run →
    a = a.take run.sent.length ++ run.left ∧
    (run.result = .parameterError ↔ run.sent = []) ∧
    (run.result = .ok ↔ run.sent ≠ [] ∧ ∀ b ∈ a.take run.sent.length, b = .ok) ∧
    (run.result = .transportError ↔
      ∃ before, (∀ b ∈ before, b = .ok) ∧ a.take run.sent.length = before ++ [.fail])

/-- Spec R108: the three codes of the response port, all different; `0b11` is never produced. -/
def Obligations.ResultCodesAreThree : Prop :=
  resultCode .ok = 0b00#2 ∧ resultCode .parameterError = 0b01#2 ∧ resultCode .transportError = 0b10#2 ∧
    ∀ r, resultCode r ≠ 0b11#2

/-- Spec R26: at the signal level an accepted request is an edge with valid and ready, an answer is an edge with
`tx_done` outside idle and after the start pulse, the effect is that of the event, and without an event the pulses
fall and the word is held. Two things here are the model's choice: clause 1, that a reset wins over a request or an
answer at the same edge (log 22), and in clause 4 that `tx_word` is held through an edge without an event in Idle too,
where R26 and U12 leave it any value (log 8). -/
def Obligations.ClockEdgeBindsPinsToEvents : Prop :=
  ∀ (s : State) (p : InputPins),
    (p.rst = true → clockEdge p s = react .reset s) ∧
    (p.rst = false → p.reqValid = true → s.pins.reqReady = true → clockEdge p s = react (.req p.reqData) s) ∧
    (p.rst = false → p.txDone = true → s.pins.reqReady = false → s.pins.txStart = false →
      clockEdge p s = react (.txDone (if p.txOk = true then .ok else .fail)) s) ∧
    (p.rst = false → (s.pins.reqReady = true → p.reqValid = false) → (s.pins.reqReady = false → p.txDone = false) →
      ∃ t, clockEdge p s = .next t ∧ t.phase = s.phase ∧ t.pins.txStart = false ∧ t.pins.rspValid = false ∧
        t.pins.txWord = s.pins.txWord)

/-- The record of the run (Safety.lean; log 11, the model's own; spec R126): it holds at reset and every step keeps it,
it is made by accepting a request and by nothing else, and it is not lost. -/
def Obligations.StepKeepsRunRecord : Prop :=
  RunRecord State.reset ∧
  ∀ s t : State, step s = .next t →
    (RunRecord s → RunRecord t) ∧ (t.started = true ↔ s.started = true ∨ ∃ r, nextEvent s = some (.req r))

/-- Spec R116, R126, U11: a reset is taken as the launch only. After any run in which a request was accepted, from
whatever state, a reset asserted next is refused: as one in flight outside Idle, and as one after the first request in
Idle. After a run from a launched block in which none was accepted, it is taken. The record of the run by which the
model tells this is its own (log 11), and that the reset comes before a request presented with it is its choice
(log 22). -/
def Obligations.RunTakesResetOnlyAsTheLaunch : Prop :=
  ∀ (n : Nat) (s t : State) (ts : List Transition), traceRun n s = some (ts, t) →
    ((∃ e ∈ ts, ∃ r, e.input = some (.req r)) →
      (t.phase ≠ .idle → step { t with rst := true } = .refused .resetInFlight) ∧
      (t.phase = .idle → step { t with rst := true } = .refused .resetAfterFirstRequest)) ∧
    (s.phase = .idle → s.started = false → (∀ e ∈ ts, ∀ r, e.input ≠ some (.req r)) →
      ∃ u, step { t with rst := true } = .next u ∧ u.phase = .idle ∧ u.output = none ∧ u.requests = t.requests)

/-- Spec R18, R23, R115: being seen alike (Safety.lean) is kept by every step: from two such states a step takes the
same input event, has a next state from both or from neither, emits the same output event and leaves two such states,
whatever else they hold. The clause of `SeenAlike` on the record of the run is the model's own (log 11). -/
def Obligations.StepKeepsStatesSeenAlike : Prop :=
  ∀ s s' : State, SeenAlike s s' →
    nextEvent s' = nextEvent s ∧
    (∀ t, step s = .next t → ∃ t', step s' = .next t' ∧ t'.output = t.output ∧ SeenAlike t t') ∧
    ((∀ t, step s ≠ .next t) → ∀ t', step s' ≠ .next t')

/-- Spec R57, R78 (program P5 of 95_test_vectors.md): no device whose reaction is a function of the word it receives
meets both the claim about SetChannelRegister (R58) and the claim about SetChannelOutputs (R59). -/
def Obligations.NoWordDrivenDeviceMeetsBothClaims : Prop :=
  ¬ ∃ reaction : Word → Device → Device,
    (∀ (c : ChannelOperand) (v : ValueOperand) (d : Device), InRange c v →
      Device.Claim (.scr c v) .ok d (reaction (wReg c v) d)) ∧
    (∀ (c : ChannelOperand) (w : Word) (d : Device), Device.Claim (.sco c w) .ok d (reaction w d))

/-- Spec R44: the bus carries bit 15 first and bit 0 last, and a receiver that shifts the bits in gets the word. -/
def Obligations.BusCarriesTheWordMostSignificantFirst : Prop :=
  ∀ w : Word, (bitsOnBus w).length = 16 ∧ (∀ k, k < 16 → (bitsOnBus w)[k]? = some (w.getLsbD (15 - k))) ∧
    wordFromBus (bitsOnBus w) = w
end

