-- ==== Sys2Proof/Laws/Codec.lean ====
section
/-! SUPPORT. The fields of an encoded word read back, and words rebuilt from their fields. -/

namespace Sys2Proof

@[simp] theorem opField_requestWord (op : BitVec 2) (c : ChannelOperand) (v : ValueOperand) :
    opField (requestWord op c v) = op := by
  apply BitVec.eq_of_getLsbD_eq
  intro k hk
  interval_cases k <;> simp [opField, requestWord]

@[simp] theorem channelField_requestWord (op : BitVec 2) (c : ChannelOperand) (v : ValueOperand) :
    channelField (requestWord op c v) = c := by
  apply BitVec.eq_of_getLsbD_eq
  intro k hk
  interval_cases k <;> simp [channelField, requestWord]

@[simp] theorem valueField_requestWord (op : BitVec 2) (c : ChannelOperand) (v : ValueOperand) :
    valueField (requestWord op c v) = v := by
  apply BitVec.eq_of_getLsbD_eq
  intro k hk
  interval_cases k <;> simp [valueField, requestWord]

/-- A request word is its three fields: no bit of it is lost. -/
@[simp] theorem requestWord_fields (r : ReqWord) :
    requestWord (opField r) (channelField r) (valueField r) = r := by
  apply BitVec.eq_of_getLsbD_eq
  intro k hk
  interval_cases k <;> simp [opField, channelField, valueField, requestWord]

theorem bitVec2_cases (x : BitVec 2) : x = 0b00#2 ∨ x = 0b01#2 ∨ x = 0b10#2 ∨ x = 0b11#2 := by
  revert x; decide

/-- The operation code is a case on the two bits of `op` (spec R63). -/
theorem opcode_scr_iff (r : ReqWord) : opcode r = .scr ↔ opField r = 0b00#2 := by
  unfold opcode; rcases bitVec2_cases (opField r) with h | h | h | h <;> simp [h]

theorem opcode_sco_iff (r : ReqWord) : opcode r = .sco ↔ opField r = 0b01#2 := by
  unfold opcode; rcases bitVec2_cases (opField r) with h | h | h | h <;> simp [h]

theorem opcode_sdo_iff (r : ReqWord) : opcode r = .sdo ↔ opField r = 0b10#2 := by
  unfold opcode; rcases bitVec2_cases (opField r) with h | h | h | h <;> simp [h]

theorem opcode_reserved_iff (r : ReqWord) : opcode r = .reserved ↔ opField r = 0b11#2 := by
  unfold opcode; rcases bitVec2_cases (opField r) with h | h | h | h <;> simp [h]

@[simp] theorem opcode_requestWord_scr (c : ChannelOperand) (v : ValueOperand) :
    opcode (requestWord 0b00#2 c v) = .scr := (opcode_scr_iff _).2 (by simp)

@[simp] theorem opcode_requestWord_sco (c : ChannelOperand) (v : ValueOperand) :
    opcode (requestWord 0b01#2 c v) = .sco := (opcode_sco_iff _).2 (by simp)

@[simp] theorem opcode_requestWord_sdo (c : ChannelOperand) (v : ValueOperand) :
    opcode (requestWord 0b10#2 c v) = .sdo := (opcode_sdo_iff _).2 (by simp)

@[simp] theorem opcode_requestWord_reserved (c : ChannelOperand) (v : ValueOperand) :
    opcode (requestWord 0b11#2 c v) = .reserved := (opcode_reserved_iff _).2 (by simp)

/-- What a request decodes to, by its operation code. -/
theorem decodeRequest_of_scr {r : ReqWord} (h : opcode r = .scr) :
    decodeRequest r = .scr (channelField r) (valueField r) := by simp [decodeRequest, h]

theorem decodeRequest_of_sco {r : ReqWord} (h : opcode r = .sco) :
    decodeRequest r = .sco (channelField r) (valueField r) := by simp [decodeRequest, h]

theorem decodeRequest_of_sdo {r : ReqWord} (h : opcode r = .sdo) :
    decodeRequest r = .sdo (channelField r) (valueField r) := by simp [decodeRequest, h]

theorem decodeRequest_of_reserved {r : ReqWord} (h : opcode r = .reserved) :
    decodeRequest r = .reservedOp3 (channelField r) (valueField r) := by simp [decodeRequest, h]

/-- The word of an operation code is rebuilt from the operands it was decoded to. -/
theorem requestWord_of_scr {r : ReqWord} (h : opcode r = .scr) :
    requestWord 0b00#2 (channelField r) (valueField r) = r := by
  have := requestWord_fields r
  rwa [(opcode_scr_iff r).1 h] at this

theorem requestWord_of_sco {r : ReqWord} (h : opcode r = .sco) :
    requestWord 0b01#2 (channelField r) (valueField r) = r := by
  have := requestWord_fields r
  rwa [(opcode_sco_iff r).1 h] at this

theorem requestWord_of_sdo {r : ReqWord} (h : opcode r = .sdo) :
    requestWord 0b10#2 (channelField r) (valueField r) = r := by
  have := requestWord_fields r
  rwa [(opcode_sdo_iff r).1 h] at this

theorem requestWord_of_reserved {r : ReqWord} (h : opcode r = .reserved) :
    requestWord 0b11#2 (channelField r) (valueField r) = r := by
  have := requestWord_fields r
  rwa [(opcode_reserved_iff r).1 h] at this

/-- Admitted means any operation but the reserved one (spec R65). -/
theorem decodeRequest_admitted_iff (r : ReqWord) :
    (decodeRequest r).admitted = true ↔ opcode r ≠ .reserved := by
  unfold decodeRequest
  cases opcode r <;> simp [Instr.admitted]

end Sys2Proof
end

