-- ==== Sys2Proof/Laws/Operands.lean ====
section
/-! SUPPORT. The command-word formulas bit by bit, and what has a first send. -/

namespace Sys2Proof.Machine

/-- The masked formula is the register-write layout of the operands' low bits. -/
theorem wReg_eq_layout (c : ChannelOperand) (v : ValueOperand) :
    wReg c v = registerWriteLayout (c.setWidth 3) (v.setWidth 12) := by
  apply BitVec.eq_of_getLsbD_eq
  intro k hk
  interval_cases k <;>
    simp [wReg, registerWriteLayout, tagWriteReg, channelMask, valueMask]

/-- Every register-write word has bit 15 set (spec R67). -/
theorem wReg_bit15 (c : ChannelOperand) (v : ValueOperand) : (wReg c v).getLsbD 15 = true := by
  simp [wReg, tagWriteReg]

theorem wEn1_of_le {c : ChannelOperand} (h : c.toNat ≤ 7) : wEn1 c = tagUpdateSelect ||| channelFlag c.toNat := by
  simp [wEn1, h]

/-- A channel in range is one of eight. -/
theorem channel_cases {c : ChannelOperand} (h : c.toNat ≤ 7) :
    c = 0#8 ∨ c = 1#8 ∨ c = 2#8 ∨ c = 3#8 ∨ c = 4#8 ∨ c = 5#8 ∨ c = 6#8 ∨ c = 7#8 := by
  obtain ⟨n, hn⟩ : ∃ n, n = c.toNat := ⟨_, rfl⟩
  have hc : c = BitVec.ofNat 8 n := by simp [hn]
  rw [← hn] at h
  interval_cases n <;> simp [hc]

/-- Every request with a first send is SCR, SCO or SDO, and checked operands are valid (spec R28). -/
theorem firstSend_cases {r : ReqWord} {w : Word} (h : firstSend r = some w) :
    (opcode r = .sco ∧ w = valueField r) ∨
    ((opcode r = .scr ∨ opcode r = .sdo) ∧ valid (channelField r) (valueField r) = true ∧
      w = wReg (channelField r) (valueField r)) := by
  unfold firstSend at h
  cases ho : opcode r <;> rw [ho] at h <;> simp_all

theorem firstSend_not_reserved {r : ReqWord} {w : Word} (h : firstSend r = some w) : opcode r ≠ .reserved := by
  rcases firstSend_cases h with ⟨h, -⟩ | ⟨h | h, -⟩ <;> simp [h]

end Sys2Proof.Machine
end

