-- ==== Sys2Proof/Laws/State.lean ====
section
/-! SUPPORT. One lemma per field for each update of State, true by definition: later proofs do not unfold a record
update. -/

namespace Sys2Proof.Machine

@[simp] theorem State.latch_phase (r : ReqWord) (s : State) : (s.latch r).phase = s.phase := rfl
@[simp] theorem State.latch_reqQ (r : ReqWord) (s : State) : (s.latch r).reqQ = r := rfl
@[simp] theorem State.latch_txStart (r : ReqWord) (s : State) : (s.latch r).txStart = s.txStart := rfl
@[simp] theorem State.latch_txWord (r : ReqWord) (s : State) : (s.latch r).txWord = s.txWord := rfl
@[simp] theorem State.latch_rspValid (r : ReqWord) (s : State) : (s.latch r).rspValid = s.rspValid := rfl
@[simp] theorem State.latch_rspResult (r : ReqWord) (s : State) : (s.latch r).rspResult = s.rspResult := rfl
@[simp] theorem State.latch_requests (r : ReqWord) (s : State) : (s.latch r).requests = s.requests := rfl
@[simp] theorem State.latch_answers (r : ReqWord) (s : State) : (s.latch r).answers = s.answers := rfl
@[simp] theorem State.latch_rst (r : ReqWord) (s : State) : (s.latch r).rst = s.rst := rfl
@[simp] theorem State.latch_started (r : ReqWord) (s : State) : (s.latch r).started = true := rfl
@[simp] theorem State.latch_freeCount (r : ReqWord) (s : State) : (s.latch r).freeCount = s.freeCount := rfl

@[simp] theorem startSend_phase (p : Phase) (w : Word) (s : State) : (startSend p w s).phase = p := rfl
@[simp] theorem startSend_reqQ (p : Phase) (w : Word) (s : State) : (startSend p w s).reqQ = s.reqQ := rfl
@[simp] theorem startSend_txStart (p : Phase) (w : Word) (s : State) : (startSend p w s).txStart = true := rfl
@[simp] theorem startSend_txWord (p : Phase) (w : Word) (s : State) : (startSend p w s).txWord = w := rfl
@[simp] theorem startSend_rspValid (p : Phase) (w : Word) (s : State) : (startSend p w s).rspValid = false := rfl
@[simp] theorem startSend_rspResult (p : Phase) (w : Word) (s : State) : (startSend p w s).rspResult = Config.freeResult s.freeCount := rfl
@[simp] theorem startSend_requests (p : Phase) (w : Word) (s : State) : (startSend p w s).requests = s.requests := rfl
@[simp] theorem startSend_answers (p : Phase) (w : Word) (s : State) : (startSend p w s).answers = s.answers := rfl
@[simp] theorem startSend_rst (p : Phase) (w : Word) (s : State) : (startSend p w s).rst = s.rst := rfl
@[simp] theorem startSend_started (p : Phase) (w : Word) (s : State) : (startSend p w s).started = s.started := rfl
@[simp] theorem startSend_freeCount (p : Phase) (w : Word) (s : State) : (startSend p w s).freeCount = s.freeCount + 1 := rfl

@[simp] theorem complete_phase (r : OperationResult) (s : State) : (complete r s).phase = .idle := rfl
@[simp] theorem complete_reqQ (r : OperationResult) (s : State) : (complete r s).reqQ = Config.freeRequest s.freeCount := rfl
@[simp] theorem complete_txStart (r : OperationResult) (s : State) : (complete r s).txStart = false := rfl
@[simp] theorem complete_txWord (r : OperationResult) (s : State) : (complete r s).txWord = Config.freeWord s.freeCount := rfl
@[simp] theorem complete_rspValid (r : OperationResult) (s : State) : (complete r s).rspValid = true := rfl
@[simp] theorem complete_rspResult (r : OperationResult) (s : State) : (complete r s).rspResult = r := rfl
@[simp] theorem complete_requests (r : OperationResult) (s : State) : (complete r s).requests = s.requests := rfl
@[simp] theorem complete_answers (r : OperationResult) (s : State) : (complete r s).answers = s.answers := rfl
@[simp] theorem complete_rst (r : OperationResult) (s : State) : (complete r s).rst = s.rst := rfl
@[simp] theorem complete_started (r : OperationResult) (s : State) : (complete r s).started = s.started := rfl
@[simp] theorem complete_freeCount (r : OperationResult) (s : State) : (complete r s).freeCount = s.freeCount + 1 := rfl

@[simp] theorem quiet_phase (s : State) : (quiet s).phase = s.phase := rfl
@[simp] theorem quiet_reqQ (s : State) : (quiet s).reqQ = s.reqQ := rfl
@[simp] theorem quiet_txStart (s : State) : (quiet s).txStart = false := rfl
@[simp] theorem quiet_txWord (s : State) : (quiet s).txWord = s.txWord := rfl
@[simp] theorem quiet_rspValid (s : State) : (quiet s).rspValid = false := rfl
@[simp] theorem quiet_rspResult (s : State) : (quiet s).rspResult = Config.freeResult s.freeCount := rfl
@[simp] theorem quiet_requests (s : State) : (quiet s).requests = s.requests := rfl
@[simp] theorem quiet_answers (s : State) : (quiet s).answers = s.answers := rfl
@[simp] theorem quiet_rst (s : State) : (quiet s).rst = s.rst := rfl
@[simp] theorem quiet_started (s : State) : (quiet s).started = s.started := rfl
@[simp] theorem quiet_freeCount (s : State) : (quiet s).freeCount = s.freeCount + 1 := rfl

@[simp] theorem onReset_phase (s : State) : (onReset s).phase = .idle := rfl
@[simp] theorem onReset_reqQ (s : State) : (onReset s).reqQ = Config.freeRequest s.freeCount := rfl
@[simp] theorem onReset_txStart (s : State) : (onReset s).txStart = false := rfl
@[simp] theorem onReset_txWord (s : State) : (onReset s).txWord = Config.freeWord s.freeCount := rfl
@[simp] theorem onReset_rspValid (s : State) : (onReset s).rspValid = false := rfl
@[simp] theorem onReset_rspResult (s : State) : (onReset s).rspResult = Config.freeResult s.freeCount := rfl
@[simp] theorem onReset_requests (s : State) : (onReset s).requests = s.requests := rfl
@[simp] theorem onReset_answers (s : State) : (onReset s).answers = s.answers := rfl
@[simp] theorem onReset_rst (s : State) : (onReset s).rst = s.rst := rfl
@[simp] theorem onReset_started (s : State) : (onReset s).started = false := rfl
@[simp] theorem onReset_freeCount (s : State) : (onReset s).freeCount = s.freeCount + 1 := rfl

@[simp] theorem consume_req_phase (r : ReqWord) (s : State) : (consume (.req r) s).phase = s.phase := rfl
@[simp] theorem consume_req_reqQ (r : ReqWord) (s : State) : (consume (.req r) s).reqQ = s.reqQ := rfl
@[simp] theorem consume_req_txStart (r : ReqWord) (s : State) : (consume (.req r) s).txStart = s.txStart := rfl
@[simp] theorem consume_req_txWord (r : ReqWord) (s : State) : (consume (.req r) s).txWord = s.txWord := rfl
@[simp] theorem consume_req_rspValid (r : ReqWord) (s : State) : (consume (.req r) s).rspValid = s.rspValid := rfl
@[simp] theorem consume_req_rspResult (r : ReqWord) (s : State) : (consume (.req r) s).rspResult = s.rspResult := rfl
@[simp] theorem consume_req_requests (r : ReqWord) (s : State) : (consume (.req r) s).requests = s.requests.tail := rfl
@[simp] theorem consume_req_answers (r : ReqWord) (s : State) : (consume (.req r) s).answers = s.answers := rfl
@[simp] theorem consume_req_rst (r : ReqWord) (s : State) : (consume (.req r) s).rst = s.rst := rfl
@[simp] theorem consume_req_started (r : ReqWord) (s : State) : (consume (.req r) s).started = s.started := rfl
@[simp] theorem consume_req_freeCount (r : ReqWord) (s : State) : (consume (.req r) s).freeCount = s.freeCount := rfl

@[simp] theorem consume_txDone_phase (b : Answer) (s : State) : (consume (.txDone b) s).phase = s.phase := rfl
@[simp] theorem consume_txDone_reqQ (b : Answer) (s : State) : (consume (.txDone b) s).reqQ = s.reqQ := rfl
@[simp] theorem consume_txDone_txStart (b : Answer) (s : State) : (consume (.txDone b) s).txStart = s.txStart := rfl
@[simp] theorem consume_txDone_txWord (b : Answer) (s : State) : (consume (.txDone b) s).txWord = s.txWord := rfl
@[simp] theorem consume_txDone_rspValid (b : Answer) (s : State) : (consume (.txDone b) s).rspValid = s.rspValid := rfl
@[simp] theorem consume_txDone_rspResult (b : Answer) (s : State) : (consume (.txDone b) s).rspResult = s.rspResult := rfl
@[simp] theorem consume_txDone_requests (b : Answer) (s : State) : (consume (.txDone b) s).requests = s.requests := rfl
@[simp] theorem consume_txDone_answers (b : Answer) (s : State) : (consume (.txDone b) s).answers = s.answers.tail := rfl
@[simp] theorem consume_txDone_rst (b : Answer) (s : State) : (consume (.txDone b) s).rst = s.rst := rfl
@[simp] theorem consume_txDone_started (b : Answer) (s : State) : (consume (.txDone b) s).started = s.started := rfl
@[simp] theorem consume_txDone_freeCount (b : Answer) (s : State) : (consume (.txDone b) s).freeCount = s.freeCount := rfl

@[simp] theorem consume_reset_phase (s : State) : (consume (.reset) s).phase = s.phase := rfl
@[simp] theorem consume_reset_reqQ (s : State) : (consume (.reset) s).reqQ = s.reqQ := rfl
@[simp] theorem consume_reset_txStart (s : State) : (consume (.reset) s).txStart = s.txStart := rfl
@[simp] theorem consume_reset_txWord (s : State) : (consume (.reset) s).txWord = s.txWord := rfl
@[simp] theorem consume_reset_rspValid (s : State) : (consume (.reset) s).rspValid = s.rspValid := rfl
@[simp] theorem consume_reset_rspResult (s : State) : (consume (.reset) s).rspResult = s.rspResult := rfl
@[simp] theorem consume_reset_requests (s : State) : (consume (.reset) s).requests = s.requests := rfl
@[simp] theorem consume_reset_answers (s : State) : (consume (.reset) s).answers = s.answers := rfl
@[simp] theorem consume_reset_rst (s : State) : (consume (.reset) s).rst = false := rfl
@[simp] theorem consume_reset_started (s : State) : (consume (.reset) s).started = s.started := rfl
@[simp] theorem consume_reset_freeCount (s : State) : (consume (.reset) s).freeCount = s.freeCount := rfl

/-- The output event after each update. -/
@[simp] theorem output_startSend (p : Phase) (w : Word) (s : State) :
    (startSend p w s).output = some (.txStart w) := rfl

@[simp] theorem output_complete (r : OperationResult) (s : State) : (complete r s).output = some (.rsp r) := rfl

@[simp] theorem output_quiet (s : State) : (quiet s).output = none := rfl

@[simp] theorem output_onReset (s : State) : (onReset s).output = none := rfl

@[simp] theorem reqReady_eq (s : State) : s.reqReady = decide (s.phase = .idle) := rfl

end Sys2Proof.Machine
end

