-- ==== Sys2Proof/Laws/Ops.lean ====
section
/-! SUPPORT. What each shared operation, each meaning and the step can do, said once; later proofs cite these and do
not unfold the operations. -/

namespace Sys2Proof.Machine

open Sys2Proof.Safety

theorem valid_iff (c : ChannelOperand) (v : ValueOperand) : valid c v = true ↔ InRange c v := by
  simp [valid]

/-- A request's effect happens exactly on an idle block. -/
theorem whenIdle_next_iff (s t u : State) : whenIdle s t = .next u ↔ s.phase = .idle ∧ u = t := by
  unfold whenIdle
  cases s.phase <;> simp [eq_comm]

theorem whenIdle_of_idle {s : State} (t : State) (h : s.phase = .idle) : whenIdle s t = .next t := by
  simp [whenIdle, h]

theorem whenIdle_of_busy {s : State} (t : State) (h : s.phase ≠ .idle) :
    whenIdle s t = .refused .requestWhileBusy := by
  unfold whenIdle
  cases hp : s.phase <;> simp_all

theorem acceptChecked_of_valid {r : ReqWord} {c : ChannelOperand} {v : ValueOperand} (s : State)
    (h : valid c v = true) : acceptChecked r c v s = startSend .tx1 (wReg c v) (s.latch r) := by
  simp [acceptChecked, h]

theorem acceptChecked_of_invalid {r : ReqWord} {c : ChannelOperand} {v : ValueOperand} (s : State)
    (h : valid c v = false) : acceptChecked r c v s = complete .parameterError (s.latch r) := by
  simp [acceptChecked, h]

/-- A request that has a first send starts it. -/
theorem react_req_starts {s : State} {r : ReqWord} {w : Word} (hs : s.phase = .idle) (hf : firstSend r = some w) :
    react (.req r) s = .next (startSend .tx1 w (s.latch r)) := by
  unfold firstSend at hf
  cases h : opcode r with
  | scr =>
    cases hv : valid (channelField r) (valueField r) <;>
      simp_all [react, decodeRequest, exec, execScr, requestWord_of_scr h, whenIdle, acceptChecked]
  | sco =>
    obtain rfl : valueField r = w := by simpa [h] using hf
    simp [react, decodeRequest, h, exec, execSco, requestWord_of_sco h, whenIdle, hs, acceptVerbatim]
  | sdo =>
    cases hv : valid (channelField r) (valueField r) <;>
      simp_all [react, decodeRequest, exec, execSdo, requestWord_of_sdo h, whenIdle, acceptChecked]
  | reserved => simp [h] at hf

/-- A request of one of the three operations without a first send is answered with ParameterError. -/
theorem react_req_rejects {s : State} {r : ReqWord} (hs : s.phase = .idle) (hr : opcode r ≠ .reserved)
    (hf : firstSend r = none) : react (.req r) s = .next (complete .parameterError (s.latch r)) := by
  unfold firstSend at hf
  cases h : opcode r with
  | scr =>
    cases hv : valid (channelField r) (valueField r) <;>
      simp_all [react, decodeRequest, exec, execScr, requestWord_of_scr h, whenIdle, acceptChecked]
  | sco => simp [h] at hf
  | sdo =>
    cases hv : valid (channelField r) (valueField r) <;>
      simp_all [react, decodeRequest, exec, execSdo, requestWord_of_sdo h, whenIdle, acceptChecked]
  | reserved => exact absurd h hr

theorem react_req_reserved (s : State) {r : ReqWord} (hr : opcode r = .reserved) :
    react (.req r) s = .refused .reservedOperation := by
  simp [react, decodeRequest, hr, exec, execReservedOp3]

theorem react_req_of_busy {s : State} {r : ReqWord} (hs : s.phase ≠ .idle) (t : State) :
    react (.req r) s ≠ .next t := by
  cases h : opcode r <;>
    simp [react, decodeRequest, h, exec, execScr, execSco, execSdo, execReservedOp3, whenIdle_of_busy _ hs]

/-- Everything a request can do. -/
theorem react_req_cases {s t : State} {r : ReqWord} (h : react (.req r) s = .next t) :
    s.phase = .idle ∧ opcode r ≠ .reserved ∧
    ((∃ w, firstSend r = some w ∧ t = startSend .tx1 w (s.latch r)) ∨
      (firstSend r = none ∧ t = complete .parameterError (s.latch r))) := by
  by_cases hs : s.phase = .idle
  · by_cases hr : opcode r = .reserved
    · rw [react_req_reserved s hr] at h; cases h
    · refine ⟨hs, hr, ?_⟩
      cases hf : firstSend r with
      | none => rw [react_req_rejects hs hr hf] at h; cases h; exact .inr ⟨rfl, rfl⟩
      | some w => rw [react_req_starts hs hf] at h; cases h; exact .inl ⟨w, rfl, rfl⟩
  · exact absurd h (react_req_of_busy hs t)

/-- Everything the answer to a send can do. -/
theorem onTxDone_cases {b : Answer} {s t : State} (h : onTxDone b s = .next t) :
    (s.phase = .idle ∧ t = quiet s) ∨
    (s.phase ≠ .idle ∧ (s.phase = .tx2 ∨ opcode s.reqQ ≠ .sdo ∨ b = .fail) ∧ t = complete (resultOf b) s) ∨
    (s.phase = .tx1 ∧ opcode s.reqQ = .sdo ∧ b = .ok ∧ t = startSend .tx2 (wEn1 (channelField s.reqQ)) s) := by
  unfold onTxDone at h
  cases hp : s.phase <;> rw [hp] at h <;> simp only at h
  · exact .inl ⟨rfl, by simpa using h.symm⟩
  · cases ho : opcode s.reqQ <;> rw [ho] at h <;> cases b <;> simp_all [resultOf]
  · exact .inr (.inl ⟨by simp, .inl rfl, by simpa using h.symm⟩)

/-- The answer to a send of a request that is not reserved always gives a next state. -/
theorem onTxDone_tx1 (b : Answer) {s : State} (hs : s.phase = .tx1) (hr : opcode s.reqQ ≠ .reserved) :
    onTxDone b s = .next (if opcode s.reqQ = .sdo ∧ b = .ok then startSend .tx2 (wEn1 (channelField s.reqQ)) s
      else complete (resultOf b) s) := by
  unfold onTxDone
  cases ho : opcode s.reqQ <;> cases b <;> simp_all [resultOf]

theorem onTxDone_tx2 (b : Answer) {s : State} (hs : s.phase = .tx2) :
    onTxDone b s = .next (complete (resultOf b) s) := by
  simp [onTxDone, hs]

theorem onTxDone_fail {s : State} (hs : s.phase ≠ .idle) :
    onTxDone .fail s = .next (complete .transportError s) := by
  unfold onTxDone
  cases hp : s.phase <;> cases ho : opcode s.reqQ <;> simp_all [resultOf]

/-- Waiting for an answer: nothing to take, or the first answer is taken. -/
theorem awaitAnswer_nil {s : State} (h : s.answers = []) : awaitAnswer s = .next (quiet s) := by
  simp [awaitAnswer, h]

theorem awaitAnswer_cons {s : State} {b : Answer} {rest : List Answer} (h : s.answers = b :: rest) :
    awaitAnswer s = onTxDone b (consume (.txDone b) s) := by
  simp [awaitAnswer, h, consume]

/-- The meaning of a command word is the transaction of its word. -/
theorem exec_command {i : Instr} {w : Word} (h : encode i = .command w) (s : State) : exec i s = transact w s := by
  cases i <;> simp_all [encode, exec, execCwReg, execCwEn]

theorem transact_of_outstanding {w : Word} {s : State} (hs : s.phase ≠ .idle) (hw : s.txWord = w) :
    transact w s = awaitAnswer s := by
  unfold transact
  cases hp : s.phase <;> simp_all

theorem transact_of_elsewhere {w : Word} {s : State} (h : s.phase = .idle ∨ s.txWord ≠ w) :
    transact w s = .refused .commandWordNotOnTransport := by
  unfold transact
  cases hp : s.phase <;> simp_all

/-- A reset gives a next state only as the launch: in Idle, before the first request. -/
theorem launch_next_iff (s t : State) :
    launch s = .next t ↔ s.phase = .idle ∧ s.started = false ∧ t = onReset s := by
  unfold launch
  cases s.phase <;> cases s.started <;> simp [react, eq_comm]

theorem launch_of_busy {s : State} (h : s.phase ≠ .idle) : launch s = .refused .resetInFlight := by
  unfold launch
  cases hp : s.phase <;> simp_all

theorem launch_of_started {s : State} (h : s.phase = .idle) (hs : s.started = true) :
    launch s = .refused .resetAfterFirstRequest := by
  simp [launch, h, hs]

/-- An asserted reset is what the step takes. -/
theorem nextEvent_of_rst {s : State} (hr : s.rst = true) : nextEvent s = some .reset := by
  simp [nextEvent, hr]

theorem step_of_rst {s : State} (hr : s.rst = true) : step s = launch (consume .reset s) := by
  simp [step, stepOnInputs, nextEvent_of_rst hr]

/-- What the step takes, without a reset: nothing, a request, or an answer. -/
theorem nextEvent_of_idle {s : State} (hr : s.rst = false) (hs : s.phase = .idle) :
    nextEvent s = s.requests.head?.map .req := by
  simp [nextEvent, hr, hs]

theorem nextEvent_of_busy {s : State} (hr : s.rst = false) (hs : s.phase ≠ .idle) :
    nextEvent s = s.answers.head?.map .txDone := by
  unfold nextEvent
  cases hp : s.phase <;> simp_all

/-- The step with nothing to take. -/
theorem step_of_none {s : State} (h : nextEvent s = none) : step s = .next (quiet s) := by
  simp [step, stepOnInputs, h]

theorem step_of_req {s : State} {r : ReqWord} (h : nextEvent s = some (.req r)) :
    step s = react (.req r) (consume (.req r) s) := by
  simp [step, stepOnInputs, h]

theorem step_of_txDone {s : State} {b : Answer} (h : nextEvent s = some (.txDone b)) :
    step s = onTxDone b (consume (.txDone b) s) := by
  simp [step, stepOnInputs, h, react]

/-- Everything a step that gives a next state can do. -/
theorem step_cases {s t : State} (h : step s = .next t) :
    (nextEvent s = none ∧ t = quiet s) ∨
    (s.rst = true ∧ s.phase = .idle ∧ s.started = false ∧ nextEvent s = some .reset ∧
      t = onReset (consume .reset s)) ∨
    (∃ r, s.rst = false ∧ s.phase = .idle ∧ s.requests.head? = some r ∧ nextEvent s = some (.req r) ∧
      react (.req r) (consume (.req r) s) = .next t) ∨
    (∃ b, s.rst = false ∧ s.phase ≠ .idle ∧ s.answers.head? = some b ∧ nextEvent s = some (.txDone b) ∧
      onTxDone b (consume (.txDone b) s) = .next t) := by
  cases hr : s.rst with
  | true =>
    have hn := nextEvent_of_rst hr
    rw [step_of_rst hr] at h
    obtain ⟨hp, hs, rfl⟩ := (launch_next_iff _ t).1 h
    exact .inr (.inl ⟨rfl, hp, hs, hn, rfl⟩)
  | false =>
    by_cases hp : s.phase = .idle
    · have hn := nextEvent_of_idle hr hp
      cases hq : s.requests with
      | nil =>
        have hn' : nextEvent s = none := by simp [hn, hq]
        rw [step_of_none hn'] at h
        exact .inl ⟨hn', by simpa using h.symm⟩
      | cons r rest =>
        have hn' : nextEvent s = some (.req r) := by simp [hn, hq]
        rw [step_of_req hn'] at h
        exact .inr (.inr (.inl ⟨r, rfl, hp, by simp, hn', h⟩))
    · have hn := nextEvent_of_busy hr hp
      cases hq : s.answers with
      | nil =>
        have hn' : nextEvent s = none := by simp [hn, hq]
        rw [step_of_none hn'] at h
        exact .inl ⟨hn', by simpa using h.symm⟩
      | cons b rest =>
        have hn' : nextEvent s = some (.txDone b) := by simp [hn, hq]
        rw [step_of_txDone hn'] at h
        exact .inr (.inr (.inr ⟨b, rfl, hp, by simp, hn', h⟩))

end Sys2Proof.Machine
end

