-- ==== Sys2Proof/Laws/PerInstr.lean ====
section
/-! SUPPORT. The law of the table's patterns, instruction by instruction: an encoded word has the fixed bits of its row
in spec/opcode_table.json. -/

namespace Sys2Proof.Laws.TablePattern

/-- The word of an instruction meets its row's match under its row's mask. -/
def Statement : Instr → Prop
  | .scr c v => ∃ r, encode (.scr c v) = .request r ∧ r &&& 0x3000000#26 = 0x0000000#26
  | .sco c w => ∃ r, encode (.sco c w) = .request r ∧ r &&& 0x3000000#26 = 0x1000000#26
  | .sdo c v => ∃ r, encode (.sdo c v) = .request r ∧ r &&& 0x3000000#26 = 0x2000000#26
  | .reservedOp3 c v => ∃ r, encode (.reservedOp3 c v) = .request r ∧ r &&& 0x3000000#26 = 0x3000000#26
  | .cwReg c v => ∃ w, encode (.cwReg c v) = .command w ∧ w &&& 0x8000#16 = 0x8000#16
  | .cwEn e => ∃ w, encode (.cwEn e) = .command w ∧ w &&& 0xFF00#16 = 0xA000#16

/-- The mask of the request rows keeps the operation field and nothing else. -/
theorem requestWord_and_mask (op : BitVec 2) (c : ChannelOperand) (v : ValueOperand) :
    requestWord op c v &&& 0x3000000#26 = op.setWidth 26 <<< 24 := by
  apply BitVec.eq_of_getLsbD_eq
  intro k hk
  interval_cases k <;> simp [requestWord]

theorem scr (c : ChannelOperand) (v : ValueOperand) : Statement (.scr c v) :=
  ⟨_, rfl, requestWord_and_mask _ c v⟩

theorem sco (c : ChannelOperand) (w : Word) : Statement (.sco c w) :=
  ⟨_, rfl, requestWord_and_mask _ c w⟩

theorem sdo (c : ChannelOperand) (v : ValueOperand) : Statement (.sdo c v) :=
  ⟨_, rfl, requestWord_and_mask _ c v⟩

theorem reservedOp3 (c : ChannelOperand) (v : ValueOperand) : Statement (.reservedOp3 c v) :=
  ⟨_, rfl, requestWord_and_mask _ c v⟩

theorem cwReg (c : BitVec 3) (v : BitVec 12) : Statement (.cwReg c v) := by
  refine ⟨_, rfl, ?_⟩
  apply BitVec.eq_of_getLsbD_eq
  intro k hk
  interval_cases k <;> simp [registerWriteLayout]

theorem cwEn (e : BitVec 8) : Statement (.cwEn e) := by
  refine ⟨_, rfl, ?_⟩
  apply BitVec.eq_of_getLsbD_eq
  intro k hk
  interval_cases k <;> simp [outputEnableLayout]

end Sys2Proof.Laws.TablePattern
end

