-- ==== Sys2Proof/Laws/Trace.lean ====
section
/-! SUPPORT. Runs step by step, and runs put together. -/

namespace Sys2Proof.Machine

@[simp] theorem traceRun_zero (s : State) : traceRun 0 s = some ([], s) := rfl

/-- A run of one step more. -/
theorem traceRun_of_next {s t : State} (k : Nat) (h : step s = .next t) :
    traceRun (k + 1) s = (traceRun k t).map fun p => (⟨nextEvent s, t.output⟩ :: p.1, p.2) := by
  simp only [traceRun, h]
  cases traceRun k t <;> rfl

/-- A run that has a value begins with a step that has a next state. -/
theorem traceRun_succ_cases {k : Nat} {s u : State} {ts : List Transition} (h : traceRun (k + 1) s = some (ts, u)) :
    ∃ t ts', step s = .next t ∧ traceRun k t = some (ts', u) ∧ ts = ⟨nextEvent s, t.output⟩ :: ts' := by
  cases hs : step s with
  | next t =>
    rw [traceRun_of_next k hs] at h
    cases ht : traceRun k t with
    | none => simp [ht] at h
    | some p =>
      obtain ⟨rfl, rfl⟩ : ⟨nextEvent s, t.output⟩ :: p.1 = ts ∧ p.2 = u := by simpa [ht] using h
      exact ⟨t, p.1, rfl, ht, rfl⟩
  | fault f => cases f
  | refused r => simp [traceRun, hs] at h

/-- Two runs, one after the other, are one run. -/
theorem traceRun_add {m n : Nat} {s t u : State} {ts us : List Transition} (h₁ : traceRun m s = some (ts, t))
    (h₂ : traceRun n t = some (us, u)) : traceRun (m + n) s = some (ts ++ us, u) := by
  induction m generalizing s ts with
  | zero =>
    obtain ⟨rfl, rfl⟩ : [] = ts ∧ s = t := by simpa using h₁
    simpa using h₂
  | succ m ih =>
    obtain ⟨v, ts', hs, hv, rfl⟩ := traceRun_succ_cases h₁
    rw [Nat.add_right_comm, traceRun_of_next (m + n) hs, ih hv]
    rfl

end Sys2Proof.Machine
end

