-- ==== Sys2Proof/Tests/Slice0.lean ====
section
/-! SUPPORT. The model's own tests. Expected values are those of spec/95_test_vectors.md (section named at each test),
or are written out from the encodings of 30_encoding.md. The witness theorems show states and operands that meet the
hypotheses of the obligation they are named after, clause by clause. -/

namespace Sys2Proof.Tests

open Sys2Proof.Machine Sys2Proof.Safety

/-- An idle block with these requests and answers to come. -/
def idleWith (requests : List ReqWord) (answers : List Answer) : State :=
  { State.reset with requests := requests, answers := answers }

/-- A block with the send of `w` outstanding in phase `p` for request `r`. -/
def sending (p : Phase) (r : ReqWord) (w : Word) (answers : List Answer) : State :=
  { State.reset with phase := p, reqQ := r, txWord := w, answers := answers, started := true }

/-- The phase and the output event of a next state. -/
def shown : Host.Outcome State Fault Refusal → Option (Phase × Option OutputEvent)
  | .next t => some (t.phase, t.output)
  | .fault _ => none
  | .refused _ => none

/-- The reason of a refusal. -/
def reason : Host.Outcome State Fault Refusal → Option Refusal
  | .next _ => none
  | .fault _ => none
  | .refused r => some r

/-! WellFormed: a term for each check that it refuses. -/

theorem test_reserved_request_is_ill_formed : (Instr.reservedOp3 0#8 0#16).wellFormed = false := by decide

theorem test_aliased_register_write_is_ill_formed : (Instr.cwReg 2#3 0x0FF#12).wellFormed = false := by decide

theorem test_unaliased_register_write_is_well_formed : (Instr.cwReg 2#3 0x100#12).wellFormed = true := by decide

theorem test_out_of_range_request_is_well_formed : (Instr.scr 8#8 4096#16).wellFormed = true := by decide

/-! Decoding: words written out bit by bit from spec R62, R63, R65, R67, R68 (requests: 95 section 2.5). -/

theorem test_decode_scr : decodeRequest 0b00_00000000_0000111111111111#26 = .scr 0#8 4095#16 := by decide

theorem test_decode_sco : decodeRequest 0b01_11111111_1010000000000111#26 = .sco 255#8 0xA007#16 := by decide

theorem test_decode_sdo : decodeRequest 0b10_00000111_0000000000000001#26 = .sdo 7#8 1#16 := by decide

theorem test_decode_reserved : decodeRequest 0b11_11111111_1111111111111111#26 = .reservedOp3 255#8 0xFFFF#16 := by
  decide

theorem test_decode_cwReg : decodeTableWord 16 0b1101_0011_1110_1000 = some (.cwReg 5#3 1000#12) := by decide

theorem test_decode_cwEn : decodeTableWord 16 0b1010_0000_1000_0000 = some (.cwEn 0x80#8) := by decide

theorem test_decode_no_layout : decodeBits 16 0x7FFF = .error .noCommandLayout := by rfl

theorem test_decode_beyond_request : decodeBits 32 0x4000000 = .error .bitsBeyondFormat := by rfl

theorem test_decode_other_width : decodeBits 24 0 = .error .unknownWidth := by rfl

/-! One step of each instruction (95 sections 2.1, 2.2, 2.3, 2.6). -/

/-- `SCR 6, 2748` starts the send of `0xEABC`. -/
theorem test_scr_starts_send :
    shown (step (idleWith [0x0060ABC#26] [])) = some (.tx1, some (.txStart 0xEABC#16)) := by decide

/-- `SCR 16, 0`: validation precedes masking (2.7). -/
theorem test_scr_validates_before_masking :
    shown (step (idleWith [0x0100000#26] [.ok])) = some (.idle, some (.rsp .parameterError)) := by decide

/-- `SCO 0x0007` with the tag forgotten is sent verbatim. -/
theorem test_sco_sends_verbatim :
    shown (step (idleWith [0x1000007#26] [])) = some (.tx1, some (.txStart 0x0007#16)) := by decide

/-- `SCO` with channel field 85 and word `0xA001`: the field has no effect. -/
theorem test_sco_ignores_channel :
    shown (step (idleWith [0x155A001#26] [])) = some (.tx1, some (.txStart 0xA001#16)) := by decide

/-- `SDO 3, 2048`: after an ok, the enable word of channel 3 alone. -/
theorem test_sdo_second_send :
    shown (step (sending .tx1 0x2030800#26 0xB800#16 [.ok])) = some (.tx2, some (.txStart 0xA008#16)) := by decide

/-- `SDO 0, 4095` with a first answer fail: TransportError, no second send. -/
theorem test_sdo_short_circuit :
    shown (step (sending .tx1 0x2000FFF#26 0x8FFF#16 [.fail])) = some (.idle, some (.rsp .transportError)) := by decide

theorem test_reserved_is_refused : reason (step (idleWith [0x3000000#26] [.ok])) = some .reservedOperation := by decide

/-- The send of `0xF001` of `SCR 7, 1` answered fail. -/
theorem test_cwReg_failed_send :
    shown (exec (.cwReg 7#3 1#12) (sending .tx1 0x0070001#26 0xF001#16 [.fail])) =
      some (.idle, some (.rsp .transportError)) := by decide

/-- The second send of `SDO 7, 0` answered ok. -/
theorem test_cwEn_second_send :
    shown (exec (.cwEn 0x80#8) (sending .tx2 0x2070000#26 0xA080#16 [.ok])) = some (.idle, some (.rsp .ok)) := by decide

theorem test_cwEn_not_on_port :
    reason (exec (.cwEn 0x80#8) (sending .tx2 0x2070000#26 0xA001#16 [.ok])) = some .commandWordNotOnTransport := by
  decide

/-- A reset presented with the response of the run's first operation is refused (spec R126, U11). -/
theorem test_reset_after_first_request_is_refused :
    reason (step { State.reset with started := true, rspValid := true, rst := true }) = some .resetAfterFirstRequest := by
  decide

/-- The step that accepts a request is where the launch ends (spec R126). -/
theorem test_accepting_a_request_ends_the_launch :
    (match step (idleWith [0x0080000#26] []) with
      | .next t => reason (step { t with rst := true })
      | .fault _ => none
      | .refused _ => none) = some .resetAfterFirstRequest := by decide

/-! The operation level on vectors of the spec (95 sections 2.3, 3). -/

theorem test_operation_sdo_fails_second :
    operation 0x2000FFF#26 [.ok, .fail] = some ⟨[0x8FFF#16, 0xA001#16], .transportError, []⟩ := by decide

/-- P3: three rejected requests and one send. -/
theorem test_program_p3 :
    program [0x0080000#26, 0x0001000#26, 0x2090005#26, 0x0070FFF#26] [.ok] =
      some ([.rsp .parameterError, .rsp .parameterError, .rsp .parameterError, .txStart 0xFFFF#16, .rsp .ok], []) := by
  decide

/-! Placing a word: the next step runs it. -/

theorem test_fetch_word_request :
    shown (step (State.reset.withFetchWord 32 0x0000FFF)) = some (.tx1, some (.txStart 0x8FFF#16)) := by decide

theorem test_fetch_word_command :
    shown (step (State.reset.withFetchWord 16 0x8000)) = some (.idle, some (.rsp .ok)) := by decide

/-- The first bit on the bus of `0x8001` is bit 15 (spec R44). -/
theorem test_bus_order : (bitsOnBus 0x8000#16).head? = some true := by decide

/-! Witnesses of the obligations' hypotheses. -/

theorem witness_RequestDecodingIsATwoBitCase :
    opField 0x0000FFF#26 = 0b00#2 ∧ opField 0x100A007#26 = 0b01#2 ∧ opField 0x2FFFFFF#26 = 0b10#2 ∧
    opField 0x3000000#26 = 0b11#2 ∧ opField 0x2FFFFFF#26 ≠ 0b11#2 ∧ opField 0x0000FFF#26 = opField 0x0FF0000#26 ∧
    opField 0x0080000#26 = 0b00#2 ∧ State.reset.phase = .idle ∧
    ¬ InRange (channelField 0x0080000#26) (valueField 0x0080000#26) := by decide

theorem witness_DecodeOfEncodeGivesTheInstruction :
    (Instr.sdo 255#8 0xFFFF#16).wellFormed = true ∧ (Instr.cwReg 2#3 0x100#12).wellFormed = true ∧
    (Instr.cwEn 0xFF#8).wellFormed = true ∧ (0xFF#12 : BitVec 12).toNat < 256 := by decide

theorem witness_EncodeOfDecodeGivesTheWord :
    decode (.request 0x2FFFFFF#26) = .ok (.sdo 255#8 0xFFFF#16) ∧
    decode (.command 0xA100#16) = .ok (.cwReg 2#3 0x100#12) := ⟨rfl, rfl⟩

theorem witness_StepRunsTheAcceptedRequest :
    (idleWith [0x0070FFF#26, 0x3000000#26] []).rst = false ∧
    (idleWith [0x0070FFF#26, 0x3000000#26] []).phase = .idle ∧
    (idleWith [0x0070FFF#26, 0x3000000#26] []).requests = 0x0070FFF#26 :: [0x3000000#26] := by decide

theorem witness_StepRunsTheOutstandingCommandWord :
    (sending .tx2 0x2070000#26 0xA080#16 [.ok]).rst = false ∧
    (sending .tx2 0x2070000#26 0xA080#16 [.ok]).phase ≠ .idle ∧
    decodeCommand (sending .tx2 0x2070000#26 0xA080#16 [.ok]).txWord = .ok (.cwEn 0x80#8) := ⟨rfl, by decide, rfl⟩

theorem witness_FetchWordRunsTheDecodedInstruction :
    decodeTableWord 26 0x3FFFFFF = some (.reservedOp3 255#8 0xFFFF#16) ∧
    decodeTableWord 32 0x3FFFFFF = some (.reservedOp3 255#8 0xFFFF#16) ∧
    decodeTableWord 16 0xFFFF = some (.cwReg 7#3 0xFFF#12) := by decide

theorem witness_RegisterWriteWordClosedForm : InRange 7#8 4095#16 := by decide

theorem witness_RegisterWriteLayoutIsOnePairPerWord : (0x8000#16 : Word).getLsbD 15 = true := by decide

theorem witness_WordArithmeticLosesNoBit : (7#8 : ChannelOperand).toNat ≤ 7 := by decide

theorem witness_SingleChannelEnableWord : (7#8 : ChannelOperand).toNat ≤ 7 ∧ (7 : Nat) ≤ 7 := by decide

theorem witness_ValidationReadsTheUpperBits :
    opField 0x100FFFF#26 = 0b01#2 ∧ opField 0x0071000#26 = 0b00#2 ∧ opField 0x2070FFF#26 = 0b10#2 := by decide

theorem witness_LayoutsAliasOnChannelTwo :
    (255#16 : ValueOperand).toNat ≤ 255 ∧ (7#8 : ChannelOperand).toNat ≤ 7 ∧ conforming 0xA0FF#16 = true := by decide

theorem witness_ChannelMapRows :
    (7#8, 0xF000#16, 0xA080#16, 0x80#16) ∈
      [((0#8 : ChannelOperand), (0x8000#16 : Word), (0xA001#16 : Word), (0x01#16 : Word)),
       (7#8, 0xF000#16, 0xA080#16, 0x80#16)] ∧ (4095#16 : ValueOperand).toNat ≤ 4095 := by decide

theorem witness_AcceptanceFollowsTheRequestTable :
    State.reset.phase = .idle ∧
    (opField 0x0080FFF#26 = 0b00#2 ∧ ¬ InRange (channelField 0x0080FFF#26) (valueField 0x0080FFF#26)) ∧
    (opField 0x2071000#26 = 0b10#2 ∧ ¬ InRange (channelField 0x2071000#26) (valueField 0x2071000#26)) ∧
    (opField 0x0070FFF#26 = 0b00#2 ∧ InRange (channelField 0x0070FFF#26) (valueField 0x0070FFF#26)) ∧
    opField 0x100FFFF#26 = 0b01#2 ∧ opField 0x3000000#26 = 0b11#2 := by decide

theorem witness_AnswersFollowTheSendTable :
    (sending .tx1 0x0070001#26 0xF001#16 []).phase = .tx1 ∧ opcode 0x0070001#26 = .scr ∧ opcode 0x100A007#26 = .sco ∧
    opcode 0x2030800#26 = .sdo ∧ (sending .tx2 0x2070000#26 0xA080#16 []).phase = .tx2 ∧
    ∃ t, react (.txDone .ok) (sending .tx1 0x2030800#26 0xB800#16 []) = .next t ∧ t.phase = .tx2 :=
  ⟨rfl, by decide, by decide, by decide, rfl, _, rfl, rfl⟩

theorem witness_NoOtherStepsExist :
    (sending .tx1 0x0070001#26 0xF001#16 []).phase ≠ .idle ∧ State.reset.phase = .idle ∧
    ∃ t, step (idleWith [0x0080000#26] []) = .next t ∧ t.output ≠ none :=
  ⟨by decide, rfl, _, rfl, by decide⟩

theorem witness_StepRefusesResetInFlight :
    ({ State.reset with rst := true } : State).rst = true ∧ ({ State.reset with rst := true } : State).phase = .idle ∧
    ({ State.reset with rst := true } : State).started = false ∧
    ({ State.reset with rst := true, started := true } : State).started = true ∧
    ({ State.reset with rst := true, phase := .tx2 } : State).rst = true ∧
    ({ State.reset with rst := true, phase := .tx2 } : State).phase ≠ .idle := by decide

theorem witness_SetChannelRegisterRun :
    (idleWith [0x0080000#26] []).requests = [0x0080000#26] ∧ opField 0x0080000#26 = 0b00#2 ∧
    ¬ InRange (channelField 0x0080000#26) (valueField 0x0080000#26) ∧
    (idleWith [0x0070FFF#26] [.fail]).rst = false ∧ (idleWith [0x0070FFF#26] [.fail]).phase = .idle ∧
    (idleWith [0x0070FFF#26] [.fail]).requests = [0x0070FFF#26] ∧ opField 0x0070FFF#26 = 0b00#2 ∧
    InRange (channelField 0x0070FFF#26) (valueField 0x0070FFF#26) ∧
    (idleWith [0x0070FFF#26] [.fail]).answers = [.fail] := by decide

theorem witness_SetChannelOutputsRun :
    (idleWith [0x1FFA007#26] [.ok]).rst = false ∧ (idleWith [0x1FFA007#26] [.ok]).phase = .idle ∧
    (idleWith [0x1FFA007#26] [.ok]).requests = [0x1FFA007#26] ∧ opField 0x1FFA007#26 = 0b01#2 ∧
    (idleWith [0x1FFA007#26] [.ok]).answers = [.ok] := by decide

theorem witness_SetDirectOutputRun :
    (idleWith [0x2081000#26] []).requests = [0x2081000#26] ∧ opField 0x2081000#26 = 0b10#2 ∧
    ¬ InRange (channelField 0x2081000#26) (valueField 0x2081000#26) ∧
    opField 0x2070FFF#26 = 0b10#2 ∧ InRange (channelField 0x2070FFF#26) (valueField 0x2070FFF#26) ∧
    (idleWith [0x2070FFF#26] [.fail]).rst = false ∧ (idleWith [0x2070FFF#26] [.fail]).phase = .idle ∧
    (idleWith [0x2070FFF#26] [.fail]).requests = [0x2070FFF#26] ∧
    (idleWith [0x2070FFF#26] [.fail]).answers = [.fail] ∧
    (idleWith [0x2070FFF#26] [.ok, .fail]).answers = [.ok, .fail] := by decide

theorem witness_ReservedOperationIsRefused :
    (idleWith [0x3FFFFFF#26] []).rst = false ∧ (idleWith [0x3FFFFFF#26] []).phase = .idle ∧
    (idleWith [0x3FFFFFF#26] []).requests = [0x3FFFFFF#26] ∧ opField 0x3FFFFFF#26 = 0b11#2 := by decide

theorem witness_RequestInstructionsComplete :
    State.reset.phase = .idle ∧ ¬ InRange 7#8 4096#16 ∧ ¬ InRange 8#8 4095#16 ∧ InRange 7#8 4095#16 := by decide

theorem witness_CommandWordSendCompletes :
    (encode (.cwEn 0x80#8) = .command 0xA080#16 ∧ (sending .tx2 0x2070000#26 0xA080#16 [.ok]).txWord = 0xA080#16 ∧
      (sending .tx2 0x2070000#26 0xA080#16 [.ok]).answers = [.ok] ∧
      (sending .tx2 0x2070000#26 0xA080#16 [.ok]).phase = .tx2) ∧
    (encode (.cwReg 7#3 1#12) = .command 0xF001#16 ∧ (sending .tx1 0x0070001#26 0xF001#16 [.ok]).txWord = 0xF001#16 ∧
      (sending .tx1 0x0070001#26 0xF001#16 [.ok]).phase = .tx1 ∧ opcode 0x0070001#26 = .scr) ∧
    (encode (.cwReg 3#3 0x800#12) = .command 0xB800#16 ∧
      (sending .tx1 0x2030800#26 0xB800#16 [.ok]).txWord = 0xB800#16 ∧ opcode 0x2030800#26 = .sdo) ∧
    (encode (.cwEn 0x07#8) = .command 0xA007#16 ∧ (sending .tx1 0x100A007#26 0xA007#16 [.fail]).txWord = 0xA007#16 ∧
      opcode 0x100A007#26 = .sco) ∧
    (opcode 0x3000000#26 = .reserved ∧ (sending .tx1 0x3000000#26 0xA007#16 [.ok]).txWord = 0xA007#16) ∧
    (sending .tx1 0x100A007#26 0xA007#16 []).answers = [] := by decide

theorem witness_CommandWordElsewhereIsRefused :
    encode (.cwReg 7#3 1#12) = .command 0xF001#16 ∧ State.reset.phase = .idle ∧
    (sending .tx2 0x2070000#26 0xA080#16 [.ok]).txWord ≠ 0xF001#16 := by decide

theorem witness_RequestInstructionFrame :
    encode (.scr 7#8 4095#16) = .request 0x0070FFF#26 ∧
    (∃ t, exec (.scr 7#8 4095#16) State.reset = .next t ∧ t.phase = .tx1) ∧
    encode (.sdo 8#8 0#16) = .request 0x2080000#26 ∧ (∃ t, exec (.sdo 8#8 0#16) State.reset = .next t) :=
  ⟨by decide, ⟨_, rfl, rfl⟩, by decide, ⟨_, rfl⟩⟩

theorem witness_CommandWordFrame :
    encode (.cwEn 0x80#8) = .command 0xA080#16 ∧
    (∃ t, exec (.cwEn 0x80#8) (sending .tx2 0x2070000#26 0xA080#16 [.ok]) = .next t) ∧
    encode (.cwReg 3#3 0x800#12) = .command 0xB800#16 ∧
    (∃ t, exec (.cwReg 3#3 0x800#12) (sending .tx1 0x2030800#26 0xB800#16 [.ok]) = .next t ∧ t.phase ≠ .idle) ∧
    (∃ t, exec (.cwReg 3#3 0x800#12) (sending .tx1 0x2030800#26 0xB800#16 []) = .next t) :=
  ⟨by decide, ⟨_, rfl⟩, by decide, ⟨_, rfl, by decide⟩, ⟨_, rfl⟩⟩

theorem witness_BusyBlockTakesNoRequest :
    (sending .tx1 0x0070001#26 0xF001#16 [.ok]).phase ≠ .idle ∧
    ∃ t, step (sending .tx1 0x0070001#26 0xF001#16 [.ok]) = .next t := ⟨by decide, _, rfl⟩

theorem witness_WaitingSendHoldsItsWord :
    (sending .tx1 0x0070001#26 0xF001#16 []).rst = false ∧ (sending .tx1 0x0070001#26 0xF001#16 []).phase ≠ .idle ∧
    (sending .tx1 0x0070001#26 0xF001#16 []).answers = [] := by decide

theorem witness_StepKeepsInvariant :
    BlockInv (sending .tx1 0x2030800#26 0xB800#16 [.ok]) ∧
    (∃ t, step (sending .tx1 0x2030800#26 0xB800#16 [.ok]) = .next t) ∧
    BlockInv (sending .tx2 0x2070000#26 0xA080#16 [.ok]) ∧
    (∃ t, step (sending .tx2 0x2070000#26 0xA080#16 [.ok]) = .next t) :=
  ⟨by decide, ⟨_, rfl⟩, by decide, ⟨_, rfl⟩⟩

theorem witness_AdmittedStepAnswersNext :
    BlockInv (sending .tx1 0x2030800#26 0xB800#16 [.ok]) ∧ Admitted (sending .tx1 0x2030800#26 0xB800#16 [.ok]) ∧
    BlockInv (idleWith [0x2FFFFFF#26] []) ∧ Admitted (idleWith [0x2FFFFFF#26] []) := by
  refine ⟨by decide, ⟨rfl, ?_⟩, by decide, rfl, ?_⟩
  · intro r hr
    simp [sending, State.reset] at hr
  · intro r hr
    obtain rfl : r = 0x2FFFFFF#26 := by simpa [idleWith] using hr
    decide

theorem witness_StepsRefineTheOperation :
    (idleWith [0x2000FFF#26] [.ok, .fail]).rst = false ∧ (idleWith [0x2000FFF#26] [.ok, .fail]).phase = .idle ∧
    (idleWith [0x2000FFF#26] [.ok, .fail]).requests = [0x2000FFF#26] ∧
    operation 0x2000FFF#26 (idleWith [0x2000FFF#26] [.ok, .fail]).answers =
      some ⟨[0x8FFF#16, 0xA001#16], .transportError, []⟩ := by decide

/-- P4: the second step of a direct output fails, and the caller re-issues the enable. -/
theorem witness_ProgramRunIsItsOperationsInOrder :
    (idleWith [0x2000FFF#26, 0x100A001#26] [.ok, .fail, .ok]).rst = false ∧
    (idleWith [0x2000FFF#26, 0x100A001#26] [.ok, .fail, .ok]).phase = .idle ∧
    program (idleWith [0x2000FFF#26, 0x100A001#26] [.ok, .fail, .ok]).requests
        (idleWith [0x2000FFF#26, 0x100A001#26] [.ok, .fail, .ok]).answers =
      some ([.txStart 0x8FFF#16, .txStart 0xA001#16, .rsp .transportError, .txStart 0xA001#16, .rsp .ok], []) := by
  decide

theorem witness_BehaviourDependsOnlyOnTheInputs :
    (idleWith [0x0000FFF#26] [.ok]).phase = .idle ∧
    ({ idleWith [0x0000FFF#26] [.ok] with reqQ := 0x3FFFFFF#26, txWord := 0xFFFF#16 } : State).phase = .idle ∧
    ({ State.reset with rst := true } : State).started = ({ State.reset with rst := true, reqQ := 1#26 } : State).started ∧
    ({ idleWith [0x0000FFF#26] [.ok] with reqQ := 0x3FFFFFF#26, txWord := 0xFFFF#16 } : State) ≠
      idleWith [0x0000FFF#26] [.ok] := by decide

theorem witness_OperationEndsWithinTwoAnswers :
    (BlockInv (sending .tx1 0x2030800#26 0xB800#16 [.ok, .ok]) ∧
      (sending .tx1 0x2030800#26 0xB800#16 [.ok, .ok]).rst = false ∧
      (sending .tx1 0x2030800#26 0xB800#16 [.ok, .ok]).phase ≠ .idle ∧
      2 ≤ (sending .tx1 0x2030800#26 0xB800#16 [.ok, .ok]).answers.length) ∧
    (BlockInv (idleWith [0x2030800#26] [.ok, .ok]) ∧ (decodeRequest 0x2030800#26).admitted = true ∧
      (idleWith [0x2030800#26] [.ok, .ok]).requests = [0x2030800#26]) ∧
    (BlockInv (sending .tx1 0x2030800#26 0xB800#16 []) ∧ (sending .tx1 0x2030800#26 0xB800#16 []).answers = []) := by
  decide

theorem witness_ResponseTellsWhatWasAnswered :
    operation 0x2000FFF#26 [.ok, .ok, .fail] = some ⟨[0x8FFF#16, 0xA001#16], .ok, [.fail]⟩ ∧
    operation 0x0080000#26 [.ok] = some ⟨[], .parameterError, [.ok]⟩ := by decide

theorem witness_ClockEdgeBindsPinsToEvents :
    (⟨true, true, 0#26, true, true⟩ : InputPins).rst = true ∧
    ((⟨false, true, 0#26, true, true⟩ : InputPins).rst = false ∧ (⟨false, true, 0#26, true, true⟩ : InputPins).reqValid = true ∧
      State.reset.reqReady = true) ∧
    ((⟨false, true, 0#26, true, false⟩ : InputPins).txDone = true ∧
      (sending .tx1 0x0070001#26 0xF001#16 []).reqReady = false ∧
      (sending .tx1 0x0070001#26 0xF001#16 []).txStart = false) ∧
    ((⟨false, false, 0#26, true, true⟩ : InputPins).reqValid = false ∧ State.reset.reqReady = true) := by decide

theorem witness_StepKeepsRunRecord :
    RunRecord (sending .tx2 0x2070000#26 0xA080#16 [.ok]) ∧
    (∃ t, step (sending .tx2 0x2070000#26 0xA080#16 [.ok]) = .next t) ∧
    RunRecord (idleWith [0x0080000#26] []) ∧ (∃ t, step (idleWith [0x0080000#26] []) = .next t) :=
  ⟨by decide, ⟨_, rfl⟩, by decide, ⟨_, rfl⟩⟩

/-- A run that ends in Idle and one that ends in flight, each with an accepted request after the launch; and a run with
a launch and no request. -/
theorem witness_RunTakesResetOnlyAsTheLaunch :
    (∃ t, traceRun 3 { idleWith [0x0080000#26] [] with rst := true } =
      some ([⟨some .reset, none⟩, ⟨some (.req 0x0080000#26), some (.rsp .parameterError)⟩, ⟨none, none⟩], t) ∧
      t.phase = .idle) ∧
    (∃ t, traceRun 1 (idleWith [0x0000FFF#26] []) =
      some ([⟨some (.req 0x0000FFF#26), some (.txStart 0x8FFF#16)⟩], t) ∧ t.phase ≠ .idle) ∧
    (State.reset.phase = .idle ∧ State.reset.started = false ∧
      ∃ t, traceRun 2 { State.reset with rst := true } = some ([⟨some .reset, none⟩, ⟨none, none⟩], t)) :=
  ⟨⟨_, rfl, rfl⟩, ⟨_, rfl, by decide⟩, rfl, rfl, _, rfl⟩

/-- In flight, in Idle, and before the launch, each with something the two states do not share. -/
theorem witness_StepKeepsStatesSeenAlike :
    SeenAlike (sending .tx1 0x2030800#26 0xB800#16 [.ok]) (sending .tx1 0x2030800#26 0x1234#16 [.ok]) ∧
    (∃ t, step (sending .tx1 0x2030800#26 0xB800#16 [.ok]) = .next t) ∧
    SeenAlike (idleWith [0x0000FFF#26] [.ok]) { idleWith [0x0000FFF#26] [.ok] with reqQ := 1#26, started := true } ∧
    SeenAlike { State.reset with rst := true } { State.reset with rst := true, txWord := 0xFFFF#16 } ∧
    SeenAlike (idleWith [0x3000000#26] []) { idleWith [0x3000000#26] [] with rspValid := true } ∧
    (∀ t, step (idleWith [0x3000000#26] []) ≠ .next t) := by
  refine ⟨by decide, ⟨_, rfl⟩, by decide, by decide, by decide, fun t h => ?_⟩
  have : reason (step (idleWith [0x3000000#26] [])) = some .reservedOperation := by decide
  rw [h] at this
  cases this

theorem witness_NoWordDrivenDeviceMeetsBothClaims : InRange 2#8 7#16 ∧ conforming 0xA007#16 = true := by decide

end Sys2Proof.Tests
end

/-! The scope family (spec R5, R12, R29): the command word on the transport port, the step that runs it, and the wait
for its answer. -/

namespace Sys2Proof

/-- A word with `0xA0` in its upper byte is the enable word of its lower byte (spec R68). -/
theorem outputEnableLayout_of_upperByte {w : Word} (h : w.extractLsb' 8 8 = 0xA0#8) :
    outputEnableLayout (w.extractLsb' 0 8) = w := by
  have hsplit : w = w.extractLsb' 8 8 ++ w.extractLsb' 0 8 := by
    rw [BitVec.extractLsb'_append_extractLsb'_eq_extractLsb' (by rfl), BitVec.extractLsb'_eq_self]
  have hlayout (e : BitVec 8) : outputEnableLayout e = 0xA0#8 ++ e := by
    revert e; decide
  rw [hlayout, ← h, ← hsplit]

/-- A word with bit 15 set is the register-write word of its two fields (spec R67). -/
theorem registerWriteLayout_of_bit15 {w : Word} (h : w.getLsbD 15 = true) :
    registerWriteLayout (w.extractLsb' 12 3) (w.extractLsb' 0 12) = w := by
  apply BitVec.eq_of_getLsbD_eq
  intro k hk
  interval_cases k <;> simp [registerWriteLayout, h]

/-- No bit of a command word that decodes is lost. -/
theorem encode_of_decodeCommand {w : Word} {i : Instr} (h : decodeCommand w = .ok i) : encode i = .command w := by
  unfold decodeCommand at h
  split at h
  next hen =>
    cases h
    exact congrArg EncodedWord.command (outputEnableLayout_of_upperByte hen)
  next =>
    split at h
    next hreg =>
      cases h
      exact congrArg EncodedWord.command (registerWriteLayout_of_bit15 hreg)
    next => cases h

namespace Machine

open Sys2Proof.Safety

/-- The result of an answer is the one the operation ends with (spec R84, R91, R99). -/
theorem endsWith_resultOf (b : Answer) : EndsWith b (resultOf b) := by
  cases b <;> simp [EndsWith, resultOf]

theorem responded_complete (r : OperationResult) (s : State) : Responded r (complete r s) :=
  ⟨rfl, rfl, rfl, rfl⟩

theorem started_startSend (p : Phase) (w : Word) (s : State) : Started p s.reqQ w (startSend p w s) :=
  ⟨rfl, rfl, rfl, rfl, rfl⟩

theorem inputsKept_quiet (s : State) : InputsKept s (quiet s) := ⟨rfl, rfl, rfl⟩

/-- The answers that end an operation (spec R29): any in Tx2; in Tx1 any to SCR and SCO, and a fail. -/
theorem onTxDone_ends {b : Answer} {s : State}
    (h : s.phase = .tx2 ∨ (s.phase = .tx1 ∧ (opcode s.reqQ = .scr ∨ opcode s.reqQ = .sco ∨ b = .fail))) :
    onTxDone b s = .next (complete (resultOf b) s) := by
  obtain htx2 | ⟨htx1, hscr | hsco | rfl⟩ := h
  · exact onTxDone_tx2 b htx2
  · simp [onTxDone_tx1 b htx1, hscr]
  · simp [onTxDone_tx1 b htx1, hsco]
  · exact onTxDone_fail (by simp [htx1])

/-- The first answer ok of an SDO starts its second send (spec R29). -/
theorem onTxDone_ok_of_sdo {s : State} (hs : s.phase = .tx1) (hr : opcode s.reqQ = .sdo) :
    onTxDone .ok s = .next (startSend .tx2 (wEn1 (channelField s.reqQ)) s) := by
  simp [onTxDone_tx1 .ok hs, hr]

/-- The one answer without a row in the table of R29 (assumption log 14). -/
theorem onTxDone_ok_of_reserved {s : State} (hs : s.phase = .tx1) (hr : opcode s.reqQ = .reserved) :
    onTxDone .ok s = .refused .reservedOperation := by
  simp [onTxDone, hs, hr]

/-- The command word whose send is outstanding waits for the answer to it. -/
theorem exec_outstanding {i : Instr} {s : State} (hs : s.phase ≠ .idle) (hi : encode i = .command s.txWord) :
    exec i s = awaitAnswer s := by
  rw [exec_command hi, transact_of_outstanding hs rfl]

/-- Whatever word is on the port, a busy block waits for the answer to it (spec R12, R31). -/
theorem step_of_busy {s : State} (hr : s.rst = false) (hs : s.phase ≠ .idle) : step s = awaitAnswer s := by
  have hn := nextEvent_of_busy hr hs
  cases ha : s.answers with
  | nil => rw [awaitAnswer_nil ha, step_of_none (by simp [hn, ha])]
  | cons b rest => rw [awaitAnswer_cons ha, step_of_txDone (b := b) (by simp [hn, ha])]

/-- Settles O8: a step of a busy block and the meaning of the word on the port are the same wait for its answer. -/
theorem stepRunsTheOutstandingCommandWord : Obligations.StepRunsTheOutstandingCommandWord := by
  intro s i hr hs hd
  rw [step_of_busy hr hs, exec_outstanding hs (encode_of_decodeCommand hd)]

/-- Settles O34: without an answer the wait is `quiet`, which only lets the pulses fall. -/
theorem waitingSendHoldsItsWord : Obligations.WaitingSendHoldsItsWord := by
  intro s hr hs ha
  exact ⟨quiet s, (step_of_busy hr hs).trans (awaitAnswer_nil ha), rfl, rfl, rfl, rfl, inputsKept_quiet s⟩

/-- Settles O29: the meaning of the outstanding word is the wait for its answer, and the answer acts by the table of
R29, row by row. -/
theorem commandWordSendCompletes : Obligations.CommandWordSendCompletes := by
  rintro s i _ - hi rfl
  refine ⟨fun b more ha => ?_, fun hs ha => ?_⟩
  · have htake (hs : s.phase ≠ .idle) : exec i s = onTxDone b (consume (.txDone b) s) := by
      rw [exec_outstanding hs hi, awaitAnswer_cons ha]
    refine ⟨fun hends => ?ends, fun htx1 hsdo hb => ?secondSend, fun htx1 hres hb => ?reserved⟩
    case ends =>
      have hs : s.phase ≠ .idle := by rcases hends with h | ⟨h, -⟩ <;> simp [h]
      exact ⟨_, _, endsWith_resultOf b, (htake hs).trans (onTxDone_ends hends), responded_complete _ _, by simp [ha]⟩
    case secondSend =>
      subst hb
      exact ⟨_, (htake (by simp [htx1])).trans (onTxDone_ok_of_sdo htx1 hsdo), started_startSend _ _ _, by simp [ha]⟩
    case reserved =>
      subst hb
      exact (htake (by simp [htx1])).trans (onTxDone_ok_of_reserved htx1 hres)
  · exact ⟨quiet s, (exec_outstanding hs hi).trans (awaitAnswer_nil ha), rfl, rfl, rfl, rfl⟩

end Machine

end Sys2Proof

/-! The state family (spec R23 to R38): what every step does (`Move`), the invariant and the other relations a step
keeps, the rows of the two tables, and the operations and programs that the steps run. -/

namespace Sys2Proof

/-- Decoding a request word gives the instruction it encodes. -/
theorem decodeRequest_of_encode {i : Instr} {r : ReqWord} (h : encode i = .request r) : decodeRequest r = i := by
  cases i <;> cases h <;> simp [decodeRequest]

/-- Raw bits that decode are the word of a port that decodes. -/
theorem decodeTableWord_cases {nbits w : Nat} {i : Instr} (h : decodeTableWord nbits w = some i) :
    ∃ e, readBits nbits w = .ok e ∧ decode e = .ok i := by
  unfold decodeTableWord decodeBits at h
  cases hb : readBits nbits w with
  | error e => simp [hb] at h
  | ok e =>
    cases hd : decode e with
    | error e' => simp [hb, hd] at h
    | ok j =>
      obtain rfl : j = i := by simpa [hb, hd] using h
      exact ⟨e, rfl, hd⟩

/-- Bits of a request's width are a request word (assumption log 23). -/
theorem request_of_readBits {nbits w : Nat} {e : EncodedWord} (hn : nbits = 26 ∨ nbits = 32)
    (h : readBits nbits w = .ok e) : ∃ r, e = .request r := by
  have h16 : nbits ≠ 16 := by omega
  rw [readBits, if_neg h16, if_pos hn] at h
  split at h
  · exact ⟨_, (Except.ok.inj h).symm⟩
  · cases h

/-- Bits of width 16 are a command word (assumption log 23). -/
theorem command_of_readBits {w : Nat} {e : EncodedWord} (h : readBits 16 w = .ok e) : ∃ c, e = .command c := by
  rw [readBits, if_pos rfl] at h
  split at h
  · exact ⟨_, (Except.ok.inj h).symm⟩
  · cases h

namespace Machine

open Sys2Proof.Safety

/-! What has a first send, and the step's next input event. -/

/-- A request whose operands are checked sends W_REG exactly if they are valid (spec R28, R74). -/
theorem firstSend_of_checked {r : ReqWord} (h : opcode r = .scr ∨ opcode r = .sdo) :
    firstSend r = if valid (channelField r) (valueField r) = true then some (wReg (channelField r) (valueField r))
      else none := by
  rcases h with h | h <;> simp [firstSend, h]

theorem firstSend_of_sco {r : ReqWord} (h : opcode r = .sco) : firstSend r = some (valueField r) := by
  simp [firstSend, h]

theorem nextEvent_reset_iff (s : State) : nextEvent s = some .reset ↔ s.rst = true := by
  unfold nextEvent
  cases s.rst <;> cases s.phase <;> simp

theorem nextEvent_req_iff (s : State) (r : ReqWord) :
    nextEvent s = some (.req r) ↔ s.rst = false ∧ s.phase = .idle ∧ s.requests.head? = some r := by
  unfold nextEvent
  cases s.rst <;> cases s.phase <;> simp

theorem nextEvent_txDone_iff (s : State) (b : Answer) :
    nextEvent s = some (.txDone b) ↔ s.rst = false ∧ s.phase ≠ .idle ∧ s.answers.head? = some b := by
  unfold nextEvent
  cases s.rst <;> cases s.phase <;> simp

theorem nextEvent_of_request {s : State} {r : ReqWord} {rest : List ReqWord} (hr : s.rst = false)
    (hs : s.phase = .idle) (hq : s.requests = r :: rest) : nextEvent s = some (.req r) :=
  (nextEvent_req_iff s r).2 ⟨hr, hs, by simp [hq]⟩

theorem nextEvent_of_answer {s : State} {b : Answer} {more : List Answer} (hr : s.rst = false)
    (hs : s.phase ≠ .idle) (ha : s.answers = b :: more) : nextEvent s = some (.txDone b) :=
  (nextEvent_txDone_iff s b).2 ⟨hr, hs, by simp [ha]⟩

/-- A request is taken only in Idle (spec R31(a)). -/
theorem idle_of_nextEvent_req {s : State} {r : ReqWord} (hn : nextEvent s = some (.req r)) : s.phase = .idle := by
  obtain ⟨-, hs, -⟩ := (nextEvent_req_iff s r).1 hn
  exact hs

/-- An answer is taken only with a send outstanding (spec R31(b)). -/
theorem busy_of_nextEvent_txDone {s : State} {b : Answer} (hn : nextEvent s = some (.txDone b)) : s.phase ≠ .idle := by
  obtain ⟨-, hs, -⟩ := (nextEvent_txDone_iff s b).1 hn
  exact hs

/-! The steps. -/

/-- The answer ends the operation (spec R29): any in Tx2; in Tx1 any to SCR and SCO, and a fail. -/
abbrev AnswerEnds (b : Answer) (s : State) : Prop :=
  s.phase = .tx2 ∨ (s.phase = .tx1 ∧ (opcode s.reqQ = .scr ∨ opcode s.reqQ = .sco ∨ b = .fail))

/-- Everything a step can do, one constructor for each kind of step: the wait, the launch, and the rows of the tables
of R28 and R29. `step_next_iff` ties it to the model. -/
inductive Move (s : State) : State → Prop
  | wait (hn : nextEvent s = none) : Move s (quiet s)
  | launch (hn : nextEvent s = some .reset) (hs : s.phase = .idle) (hst : s.started = false) :
      Move s (onReset (consume .reset s))
  | start {r : ReqWord} {w : Word} (hn : nextEvent s = some (.req r)) (hf : firstSend r = some w) :
      Move s (startSend .tx1 w ((consume (.req r) s).latch r))
  | reject {r : ReqWord} (hn : nextEvent s = some (.req r)) (hr : opcode r ≠ .reserved) (hf : firstSend r = none) :
      Move s (complete .parameterError ((consume (.req r) s).latch r))
  | finish {b : Answer} (hn : nextEvent s = some (.txDone b)) (he : AnswerEnds b s) :
      Move s (complete (resultOf b) (consume (.txDone b) s))
  | secondSend (hn : nextEvent s = some (.txDone .ok)) (hs : s.phase = .tx1) (hr : opcode s.reqQ = .sdo) :
      Move s (startSend .tx2 (wEn1 (channelField s.reqQ)) (consume (.txDone .ok) s))

/-- An answer to an outstanding send ends the operation, starts the second send of an SDO, or is an ok to a reserved
request. -/
theorem answer_cases (b : Answer) {s : State} (hs : s.phase ≠ .idle) :
    AnswerEnds b s ∨ (s.phase = .tx1 ∧ b = .ok ∧ (opcode s.reqQ = .sdo ∨ opcode s.reqQ = .reserved)) := by
  cases hp : s.phase with
  | idle => exact absurd hp hs
  | tx1 => cases ho : opcode s.reqQ <;> cases b <;> simp [AnswerEnds, hp, ho]
  | tx2 => exact .inl (.inl hp)

theorem Move.step_eq {s t : State} (h : Move s t) : step s = .next t := by
  cases h with
  | wait hn => exact step_of_none hn
  | launch hn hs hst =>
    rw [step_of_rst ((nextEvent_reset_iff s).1 hn)]
    exact (launch_next_iff _ _).2 ⟨hs, hst, rfl⟩
  | start hn hf =>
    have hs := idle_of_nextEvent_req hn
    exact (step_of_req hn).trans (react_req_starts hs hf)
  | reject hn hr hf =>
    have hs := idle_of_nextEvent_req hn
    exact (step_of_req hn).trans (react_req_rejects hs hr hf)
  | finish hn he => exact (step_of_txDone hn).trans (onTxDone_ends he)
  | secondSend hn hs hr => exact (step_of_txDone hn).trans (onTxDone_ok_of_sdo hs hr)

theorem move_of_step {s t : State} (h : step s = .next t) : Move s t := by
  obtain ⟨hn, rfl⟩ | ⟨-, hs, hst, hn, rfl⟩ | ⟨r, -, -, -, hn, hreact⟩ | ⟨b, -, hs, -, hn, hdone⟩ := step_cases h
  · exact .wait hn
  · exact .launch hn hs hst
  · obtain ⟨-, hr, ⟨w, hf, rfl⟩ | ⟨hf, rfl⟩⟩ := react_req_cases hreact
    · exact .start hn hf
    · exact .reject hn hr hf
  · obtain he | ⟨htx1, rfl, hsdo | hres⟩ := answer_cases b hs
    · cases hdone.symm.trans (onTxDone_ends he)
      exact .finish hn he
    · cases hdone.symm.trans (onTxDone_ok_of_sdo htx1 hsdo)
      exact .secondSend hn htx1 hsdo
    · cases hdone.symm.trans (onTxDone_ok_of_reserved htx1 hres)

theorem step_next_iff (s t : State) : step s = .next t ↔ Move s t := ⟨move_of_step, Move.step_eq⟩

/-! The invariant. -/

theorem blockInv_complete (r : OperationResult) (s : State) : BlockInv (complete r s) := by
  simp [BlockInv]

theorem blockInv_onReset (s : State) : BlockInv (onReset s) := by
  simp [BlockInv]

theorem blockInv_quiet {s : State} (h : BlockInv s) : BlockInv (quiet s) := by
  obtain ⟨htx1, htx2, -, -⟩ := h
  exact ⟨htx1, htx2, by simp, by simp⟩

theorem blockInv_startSend_tx1 {s : State} {w : Word} (hf : firstSend s.reqQ = some w) :
    BlockInv (startSend .tx1 w s) := by
  simp [BlockInv, hf]

theorem blockInv_startSend_tx2 {s : State} (hr : opcode s.reqQ = .sdo)
    (hv : valid (channelField s.reqQ) (valueField s.reqQ) = true) :
    BlockInv (startSend .tx2 (wEn1 (channelField s.reqQ)) s) := by
  simp [BlockInv, hr, hv]

/-- A checked request with a first send has valid operands. -/
theorem valid_of_firstSend_sdo {r : ReqWord} {w : Word} (hr : opcode r = .sdo) (hf : firstSend r = some w) :
    valid (channelField r) (valueField r) = true := by
  obtain ⟨hsco, -⟩ | ⟨-, hv, -⟩ := firstSend_cases hf
  · simp [hr] at hsco
  · exact hv

theorem Move.blockInv {s t : State} (h : Move s t) (hinv : BlockInv s) : BlockInv t := by
  cases h with
  | wait => exact blockInv_quiet hinv
  | launch => exact blockInv_onReset _
  | start _ hf => exact blockInv_startSend_tx1 hf
  | reject => exact blockInv_complete _ _
  | finish => exact blockInv_complete _ _
  | secondSend _ hs hr => exact blockInv_startSend_tx2 hr (valid_of_firstSend_sdo hr (hinv.1 hs))

/-- Settles O35: each kind of step leads into the invariant; only the second send and the wait need it before. -/
theorem stepKeepsInvariant : Obligations.StepKeepsInvariant :=
  fun _ _ hinv hstep => (move_of_step hstep).blockInv hinv

/-! Progress under the caller's duties. -/

/-- A step exists unless it would take a reset, accept a reserved request, or answer the send of one. -/
theorem exists_move {s : State} (hrst : s.rst = false) (hreq : ∀ r ∈ s.requests, opcode r ≠ .reserved)
    (hheld : s.phase = .tx1 → opcode s.reqQ ≠ .reserved) : ∃ t, Move s t := by
  cases hn : nextEvent s with
  | none => exact ⟨_, .wait hn⟩
  | some e =>
    cases e with
    | reset => simp [(nextEvent_reset_iff s).1 hn] at hrst
    | req r =>
      obtain ⟨-, -, hhead⟩ := (nextEvent_req_iff s r).1 hn
      cases hf : firstSend r with
      | none => exact ⟨_, .reject hn (hreq r (List.mem_of_head? hhead)) hf⟩
      | some w => exact ⟨_, .start hn hf⟩
    | txDone b =>
      obtain he | ⟨htx1, rfl, hsdo | hres⟩ := answer_cases b (busy_of_nextEvent_txDone hn)
      · exact ⟨_, .finish hn he⟩
      · exact ⟨_, .secondSend hn htx1 hsdo⟩
      · exact absurd hres (hheld htx1)

/-- A step makes up no request: it takes the first one, or none. -/
theorem Move.requests_subset {s t : State} (h : Move s t) : t.requests ⊆ s.requests := by
  cases h <;> simp [List.tail_subset]

/-- A step asserts no reset. -/
theorem Move.rst_of_rst {s t : State} (h : Move s t) (hr : s.rst = false) : t.rst = false := by
  cases h <;> simp [hr]

/-- Settles O36: the invariant rules out a reserved request in flight, the caller's duties rule out the rest, and both
are kept. -/
theorem admittedStepAnswersNext : Obligations.AdmittedStepAnswersNext := by
  rintro s hinv ⟨hrst, hreq⟩
  have hheld (hs : s.phase = .tx1) : opcode s.reqQ ≠ .reserved := firstSend_not_reserved (hinv.1 hs)
  obtain ⟨t, ht⟩ := exists_move hrst (fun r hr => (decodeRequest_admitted_iff r).1 (hreq r hr)) hheld
  exact ⟨t, ht.step_eq, ht.blockInv hinv, ht.rst_of_rst hrst, fun r hr => hreq r (ht.requests_subset hr)⟩

/-! Noninterference. -/

theorem seenAlike_symm {s s' : State} (h : SeenAlike s s') : SeenAlike s' s := by
  obtain ⟨hp, hq, ha, hr, hst, hl⟩ := h
  exact ⟨hp.symm, hq.symm, ha.symm, hr.symm, fun h => (hst (hr ▸ h)).symm, fun h => (hl (hp ▸ h)).symm⟩

/-- Two states seen alike take the same input event. -/
theorem nextEvent_of_seenAlike {s s' : State} (h : SeenAlike s s') : nextEvent s' = nextEvent s := by
  obtain ⟨hp, hq, ha, hr, -, -⟩ := h
  simp only [nextEvent, hp, hq, ha, hr]

theorem seenAlike_consume {s s' : State} (e : InputEvent) (h : SeenAlike s s') :
    SeenAlike (consume e s) (consume e s') := by
  obtain ⟨hp, hq, ha, hr, hst, hl⟩ := h
  cases e with
  | req r => exact ⟨hp, congrArg List.tail hq, ha, hr, hst, hl⟩
  | txDone b => exact ⟨hp, hq, congrArg List.tail ha, hr, hst, hl⟩
  | reset => exact ⟨hp, hq, ha, rfl, by simp, hl⟩

theorem seenAlike_latch {s s' : State} (r : ReqWord) (h : SeenAlike s s') : SeenAlike (s.latch r) (s'.latch r) := by
  obtain ⟨hp, hq, ha, hr, -, -⟩ := h
  exact ⟨hp, hq, ha, hr, fun _ => rfl, fun _ => rfl⟩

theorem seenAlike_quiet {s s' : State} (h : SeenAlike s s') : SeenAlike (quiet s) (quiet s') := h

theorem seenAlike_onReset {s s' : State} (h : SeenAlike s s') : SeenAlike (onReset s) (onReset s') := by
  obtain ⟨-, hq, ha, hr, -, -⟩ := h
  exact ⟨rfl, hq, ha, hr, fun _ => rfl, by simp⟩

theorem seenAlike_complete {s s' : State} (result : OperationResult) (h : SeenAlike s s') :
    SeenAlike (complete result s) (complete result s') := by
  obtain ⟨-, hq, ha, hr, hst, -⟩ := h
  exact ⟨rfl, hq, ha, hr, hst, by simp⟩

theorem seenAlike_startSend {s s' : State} (p : Phase) (w : Word) (h : SeenAlike s s') (hl : s'.reqQ = s.reqQ) :
    SeenAlike (startSend p w s) (startSend p w s') := by
  obtain ⟨-, hq, ha, hr, hst, -⟩ := h
  exact ⟨rfl, hq, ha, hr, hst, fun _ => hl⟩

/-- Of two states seen alike each makes the other's step, shows the same output event, and they stay alike. -/
theorem Move.seenAlike {s s' t : State} (h : SeenAlike s s') (hm : Move s t) :
    ∃ t', Move s' t' ∧ t'.output = t.output ∧ SeenAlike t t' := by
  have hn' := nextEvent_of_seenAlike h
  have ⟨hp, _, _, _, hst, hl⟩ := h
  cases hm with
  | wait hn => exact ⟨_, .wait (hn'.trans hn), rfl, seenAlike_quiet h⟩
  | launch hn hs hlaunch =>
    have hst' := hst ((nextEvent_reset_iff s).1 hn)
    exact ⟨_, .launch (hn'.trans hn) (hp.trans hs) (hst'.trans hlaunch), rfl,
      seenAlike_onReset (seenAlike_consume .reset h)⟩
  | start hn hf =>
    exact ⟨_, .start (hn'.trans hn) hf, rfl, seenAlike_startSend _ _ (seenAlike_latch _ (seenAlike_consume _ h)) rfl⟩
  | reject hn hr hf =>
    exact ⟨_, .reject (hn'.trans hn) hr hf, rfl, seenAlike_complete _ (seenAlike_latch _ (seenAlike_consume _ h))⟩
  | finish hn he =>
    have hq := hl (busy_of_nextEvent_txDone hn)
    exact ⟨_, .finish (hn'.trans hn) (by simpa [AnswerEnds, hp, hq] using he), rfl,
      seenAlike_complete _ (seenAlike_consume _ h)⟩
  | secondSend hn hs hr =>
    have hq := hl (by simp [hs])
    refine ⟨_, .secondSend (hn'.trans hn) (hp.trans hs) (hq ▸ hr), by simp [hq], ?_⟩
    rw [hq]
    exact seenAlike_startSend _ _ (seenAlike_consume _ h) hq

/-- Settles O48: each kind of step reads only what the two states share; the third clause is the second one from the
other state's side. -/
theorem stepKeepsStatesSeenAlike : Obligations.StepKeepsStatesSeenAlike := by
  intro s s' h
  refine ⟨nextEvent_of_seenAlike h, fun t hstep => ?_, fun hstuck t' hstep => ?_⟩
  · obtain ⟨t', hm, hout, hseen⟩ := (move_of_step hstep).seenAlike h
    exact ⟨t', hm.step_eq, hout, hseen⟩
  · obtain ⟨t, hm, -, -⟩ := (move_of_step hstep).seenAlike (seenAlike_symm h)
    exact hstuck t hm.step_eq

/-! Reset. -/

/-- Settles O1: the fields of `State.reset`, as R37 and R124 give them. -/
theorem resetLeavesBlockIdleReadyAndSilent : Obligations.ResetLeavesBlockIdleReadyAndSilent :=
  ⟨rfl, rfl, rfl, rfl, rfl, rfl⟩

/-- Settles O2: at reset the block is idle and both pulses are low. -/
theorem resetStateMeetsInvariant : Obligations.ResetStateMeetsInvariant := by
  simp [Obligations.ResetStateMeetsInvariant, BlockInv, State.reset]

/-- Settles O21: the Reset event is `onReset` from every state. -/
theorem resetEventIdlesTheBlockSilently : Obligations.ResetEventIdlesTheBlockSilently :=
  fun s => ⟨onReset s, rfl, output_onReset s, onReset_phase s, rfl, rfl, rfl⟩

/-! The meanings of the instructions, as the reactions to their events. -/

/-- The meaning of a request instruction is the reaction to its request. -/
theorem exec_request {i : Instr} {r : ReqWord} (h : encode i = .request r) (s : State) :
    exec i s = react (.req r) s := by
  rw [← decodeRequest_of_encode h]
  rfl

/-- Settles O7: the step takes the presented request, and its reaction to it is the meaning. -/
theorem stepRunsTheAcceptedRequest : Obligations.StepRunsTheAcceptedRequest := by
  intro s r rest hr hs hq
  rw [step_of_req (nextEvent_of_request hr hs hq)]
  simp [react, consume, hq]

/-- Settles O33: the meanings refuse, and the steps of a busy block are the wait and the two on an answer. -/
theorem busyBlockTakesNoRequest : Obligations.BusyBlockTakesNoRequest := by
  refine ⟨fun s c v hs => ⟨?_, ?_, ?_⟩, fun s t hs hstep => ?_⟩
  · exact whenIdle_of_busy _ hs
  · exact whenIdle_of_busy _ hs
  · exact whenIdle_of_busy _ hs
  · cases move_of_step hstep with
    | wait => rfl
    | launch _ hidle => exact absurd hidle hs
    | start hn => exact absurd (idle_of_nextEvent_req hn) hs
    | reject hn => exact absurd (idle_of_nextEvent_req hn) hs
    | finish => rfl
    | secondSend => rfl

/-- A checked request with an operand out of range: ParameterError, and nothing sent (spec R28 rows 1 and 4). -/
theorem react_req_of_outOfRange {s : State} {r : ReqWord} (hs : s.phase = .idle)
    (ho : opcode r = .scr ∨ opcode r = .sdo) (hv : ¬ InRange (channelField r) (valueField r)) :
    react (.req r) s = .next (complete .parameterError (s.latch r)) := by
  have hf : firstSend r = none := by
    rw [firstSend_of_checked ho, if_neg (mt (valid_iff _ _).1 hv)]
  exact react_req_rejects hs (by rcases ho with h | h <;> simp [h]) hf

/-- A checked request with its operands in range: the send of W_REG (spec R28 rows 2 and 5). -/
theorem react_req_of_inRange {s : State} {r : ReqWord} (hs : s.phase = .idle)
    (ho : opcode r = .scr ∨ opcode r = .sdo) (hv : InRange (channelField r) (valueField r)) :
    react (.req r) s = .next (startSend .tx1 (wReg (channelField r) (valueField r)) (s.latch r)) :=
  react_req_starts hs (by rw [firstSend_of_checked ho, if_pos ((valid_iff _ _).2 hv)])

theorem opcode_checked_of_opField {r : ReqWord} (h : opField r = 0b00#2 ∨ opField r = 0b10#2) :
    opcode r = .scr ∨ opcode r = .sdo :=
  h.imp (opcode_scr_iff r).2 (opcode_sdo_iff r).2

theorem exec_responds_of_outOfRange {s : State} {i : Instr} {r : ReqWord} (hi : encode i = .request r)
    (hs : s.phase = .idle) (ho : opcode r = .scr ∨ opcode r = .sdo) (hv : ¬ InRange (channelField r) (valueField r)) :
    ∃ t, exec i s = .next t ∧ Responded .parameterError t :=
  ⟨_, (exec_request hi s).trans (react_req_of_outOfRange hs ho hv), responded_complete _ _⟩

theorem exec_starts_of_firstSend {s : State} {i : Instr} {r : ReqWord} {w : Word} (hi : encode i = .request r)
    (hs : s.phase = .idle) (hf : firstSend r = some w) : ∃ t, exec i s = .next t ∧ Started .tx1 r w t :=
  ⟨_, (exec_request hi s).trans (react_req_starts hs hf), started_startSend _ _ (s.latch r)⟩

/-- Settles O28: each instruction is the reaction to its request word, by the rows of R28. -/
theorem requestInstructionsComplete : Obligations.RequestInstructionsComplete := by
  intro s c v hs
  refine ⟨fun hv => ⟨?_, ?_⟩, fun hv => ⟨?_, ?_⟩, ?_⟩
  · exact exec_responds_of_outOfRange rfl hs (.inl (by simp)) (by simpa using hv)
  · exact exec_responds_of_outOfRange rfl hs (.inr (by simp)) (by simpa using hv)
  · exact exec_starts_of_firstSend rfl hs (by simp [firstSend, (valid_iff c v).2 hv])
  · exact exec_starts_of_firstSend rfl hs (by simp [firstSend, (valid_iff c v).2 hv])
  · exact exec_starts_of_firstSend rfl hs (by simp [firstSend])

/-- Settles O30: the meaning is the transaction of the word, which is refused where the word is not outstanding. -/
theorem commandWordElsewhereIsRefused : Obligations.CommandWordElsewhereIsRefused :=
  fun s _ _ hi h => (exec_command hi s).trans (transact_of_elsewhere h)

/-- Settles O31: an accepted request starts a send or is answered; both latch it and leave the inputs. -/
theorem requestInstructionFrame : Obligations.RequestInstructionFrame := by
  intro s t i r hi hexec
  rw [exec_request hi] at hexec
  obtain ⟨-, -, ⟨w, -, rfl⟩ | ⟨-, rfl⟩⟩ := react_req_cases hexec
  · simp [InputsKept]
  · simp [InputsKept]

/-- A command word that gives a next state is outstanding, and is waited for. -/
theorem transact_next {w : Word} {s t : State} (h : transact w s = .next t) :
    s.phase ≠ .idle ∧ awaitAnswer s = .next t := by
  by_cases he : s.phase = .idle ∨ s.txWord ≠ w
  · rw [transact_of_elsewhere he] at h
    cases h
  · obtain ⟨hs, hw⟩ := not_or.1 he
    exact ⟨hs, (transact_of_outstanding hs (not_not.1 hw)).symm.trans h⟩

/-- Settles O32: without an answer the wait is `quiet`; with one, the operation ends or its second send starts. -/
theorem commandWordFrame : Obligations.CommandWordFrame := by
  intro s t i w hi hexec
  rw [exec_command hi] at hexec
  obtain ⟨hs, hawait⟩ := transact_next hexec
  cases ha : s.answers with
  | nil =>
    rw [awaitAnswer_nil ha] at hawait
    cases hawait
    simp [ha]
  | cons b rest =>
    rw [awaitAnswer_cons ha] at hawait
    obtain ⟨hidle, -⟩ | ⟨-, -, rfl⟩ | ⟨-, -, -, rfl⟩ := onTxDone_cases hawait
    · exact absurd hidle hs
    · simp [ha]
    · simp [ha]

/-! The signal level: which event the pins make. -/

theorem sampleEvent_of_rst {p : InputPins} (hr : p.rst = true) (s : State) : sampleEvent p s = some .reset := by
  simp [sampleEvent, hr]

theorem sampleEvent_of_idle {p : InputPins} {s : State} (hr : p.rst = false) (hs : s.phase = .idle) :
    sampleEvent p s = if p.reqValid = true then some (.req p.reqData) else none := by
  simp [sampleEvent, hr, hs]

theorem sampleEvent_of_busy {p : InputPins} {s : State} (hr : p.rst = false) (hs : s.phase ≠ .idle) :
    sampleEvent p s = if p.txDone = true then some (.txDone (answerOfPin p.txOk)) else none := by
  unfold sampleEvent
  cases hp : s.phase with
  | idle => exact absurd hp hs
  | tx1 => simp [hr]
  | tx2 => simp [hr]

theorem pins_reqReady_iff (s : State) : s.pins.reqReady = true ↔ s.phase = .idle := by
  simp [State.pins]

theorem pins_reqReady_eq_false_iff (s : State) : s.pins.reqReady = false ↔ s.phase ≠ .idle := by
  simp [State.pins]

/-- No event at an edge without a reset, a valid request to an idle block or an answer to a busy one. -/
theorem sampleEvent_eq_none {p : InputPins} {s : State} (hr : p.rst = false) (hv : s.phase = .idle → p.reqValid = false)
    (hd : s.phase ≠ .idle → p.txDone = false) : sampleEvent p s = none := by
  by_cases hs : s.phase = .idle
  · simp [sampleEvent_of_idle hr hs, hv hs]
  · simp [sampleEvent_of_busy hr hs, hd hs]

/-- Settles O43: each clause fixes which event the pins make, and the edge is the reaction to it or a wait. -/
theorem clockEdgeBindsPinsToEvents : Obligations.ClockEdgeBindsPinsToEvents := by
  intro s p
  refine ⟨fun hr => ?reset, fun hr hv hready => ?request, fun hr hd hready htx => ?answer, fun hr hv hd => ?quiet⟩
  case reset => simp [clockEdge, sampleEvent_of_rst hr]
  case request => simp [clockEdge, sampleEvent_of_idle hr ((pins_reqReady_iff s).1 hready), hv]
  case answer =>
    have htx' : s.txStart = false := htx
    simp [clockEdge, sampleEvent_of_busy hr ((pins_reqReady_eq_false_iff s).1 hready), hd, htx', answerOfPin]
  case quiet =>
    rw [pins_reqReady_iff] at hv
    rw [pins_reqReady_eq_false_iff] at hd
    exact ⟨quiet s, by simp [clockEdge, sampleEvent_eq_none hr hv hd], rfl, rfl, rfl, rfl⟩

/-! Placing a word. -/

theorem withFetchWord_of_request {nbits w : Nat} {r : ReqWord} (h : readBits nbits w = .ok (.request r)) (s : State) :
    s.withFetchWord nbits w = placeRequest r s := by
  simp [State.withFetchWord, placeWord, h]

theorem withFetchWord_of_command {nbits w : Nat} {c : Word} (h : readBits nbits w = .ok (.command c)) (s : State) :
    s.withFetchWord nbits w = placeCommandWord c s := by
  simp [State.withFetchWord, placeWord, h]

/-- Settles O9: a placed request is the one the idle block accepts, a placed command word the one outstanding. -/
theorem fetchWordRunsTheDecodedInstruction : Obligations.FetchWordRunsTheDecodedInstruction := by
  refine ⟨fun s nbits w i hn hd => ?request, fun s w i hd => ?command⟩
  case request =>
    obtain ⟨e, hb, he⟩ := decodeTableWord_cases hd
    obtain ⟨r, rfl⟩ := request_of_readBits hn hb
    obtain rfl : decodeRequest r = i := Except.ok.inj he
    rw [withFetchWord_of_request hb]
    exact stepRunsTheAcceptedRequest (placeRequest r s) r s.requests rfl rfl rfl
  case command =>
    obtain ⟨e, hb, he⟩ := decodeTableWord_cases hd
    obtain ⟨c, rfl⟩ := command_of_readBits hb
    rw [withFetchWord_of_command hb]
    exact stepRunsTheOutstandingCommandWord (placeCommandWord c s) i rfl (by simp [placeCommandWord]) he

/-! The two tables. -/

/-- Settles O19: the rows of R28, each the request with or without a first send. -/
theorem acceptanceFollowsTheRequestTable : Obligations.AcceptanceFollowsTheRequestTable := by
  intro s r hs
  refine ⟨fun ho hv => ?outOfRange, fun ho hv => ?inRange, fun ho => ?verbatim, fun ho t => ?reserved⟩
  case outOfRange => exact ⟨_, react_req_of_outOfRange hs (opcode_checked_of_opField ho) hv, rfl, rfl⟩
  case inRange => exact ⟨_, react_req_of_inRange hs (opcode_checked_of_opField ho) hv, rfl, rfl, rfl⟩
  case verbatim => exact ⟨_, react_req_starts hs (firstSend_of_sco ((opcode_sco_iff r).2 ho)), rfl, rfl, rfl⟩
  case reserved => simp [react_req_reserved s ((opcode_reserved_iff r).2 ho)]

/-- Only the first answer ok of an SDO leads to Tx2 (spec R29). -/
theorem react_to_tx2 {s t : State} {e : InputEvent} (h : react e s = .next t) (ht : t.phase = .tx2) :
    s.phase = .tx1 ∧ e = .txDone .ok ∧ opcode s.reqQ = .sdo ∧ t.reqQ = s.reqQ := by
  cases e with
  | req r => obtain ⟨-, -, ⟨w, -, rfl⟩ | ⟨-, rfl⟩⟩ := react_req_cases h <;> cases ht
  | txDone b =>
    obtain ⟨hidle, rfl⟩ | ⟨-, -, rfl⟩ | ⟨htx1, hsdo, rfl, rfl⟩ := onTxDone_cases h
    · cases hidle.symm.trans ht
    · cases ht
    · exact ⟨htx1, rfl, hsdo, rfl⟩
  | reset => cases h; cases ht

/-- Settles O20: the answers that end an operation, and the one that starts a second send. -/
theorem answersFollowTheSendTable : Obligations.AnswersFollowTheSendTable := by
  refine ⟨fun s hs => ⟨?_, fun ho => ?_, fun ho => ?_⟩, fun s hs => ⟨?_, ?_⟩, fun s t e h ht => ?_⟩
  · exact ⟨_, onTxDone_fail (by simp [hs]), rfl, rfl⟩
  · exact ⟨_, onTxDone_ends (.inr ⟨hs, by simpa using ho⟩), rfl, rfl⟩
  · exact ⟨_, onTxDone_ok_of_sdo hs ho, rfl, rfl, rfl⟩
  · exact ⟨_, onTxDone_tx2 .fail hs, rfl, rfl⟩
  · exact ⟨_, onTxDone_tx2 .ok hs, rfl, rfl⟩
  · obtain ⟨htx1, he, hsdo, hq⟩ := react_to_tx2 h ht
    exact ⟨htx1, he, hsdo, hq ▸ hsdo⟩

/-- An answer that ends an operation is not the first ok of an SDO. -/
theorem not_sdo_ok_of_answerEnds {b : Answer} {s : State} (h : AnswerEnds b s) :
    s.phase = .tx2 ∨ opcode s.reqQ ≠ .sdo ∨ b = .fail := by
  obtain htx2 | ⟨-, hscr | hsco | hb⟩ := h
  · exact .inl htx2
  · exact .inr (.inl (by simp [hscr]))
  · exact .inr (.inl (by simp [hsco]))
  · exact .inr (.inr hb)

/-- Settles O22: a request needs Idle and an answer needs a send; the wait and the launch emit nothing, and every other
kind of step is a row of the tables. -/
theorem noOtherStepsExist : Obligations.NoOtherStepsExist := by
  refine ⟨fun s r hs => ⟨fun hn => ?_, react_req_of_busy hs⟩, fun s b hs => ⟨fun hn => ?_, ?_⟩,
    fun s t hstep hout => ?_⟩
  · exact hs (idle_of_nextEvent_req hn)
  · exact busy_of_nextEvent_txDone hn hs
  · exact ⟨quiet s, by simp [react, onTxDone, hs], rfl, hs⟩
  · cases move_of_step hstep with
    | wait => exact absurd rfl hout
    | launch => exact absurd rfl hout
    | start hn hf => exact .inl ⟨_, idle_of_nextEvent_req hn, hn, .inr ⟨_, hf, rfl⟩⟩
    | reject hn _ hf => exact .inl ⟨_, idle_of_nextEvent_req hn, hn, .inl ⟨hf, rfl⟩⟩
    | finish hn he =>
      exact .inr ⟨_, busy_of_nextEvent_txDone hn, hn,
        .inl ⟨not_sdo_ok_of_answerEnds he, _, endsWith_resultOf _, rfl⟩⟩
    | secondSend hn hs hr => exact .inr ⟨_, by simp [hs], hn, .inr ⟨hs, rfl, hr, rfl⟩⟩

/-! The record of the run. -/

theorem Move.runRecord {s t : State} (h : Move s t) (hrec : RunRecord s) : RunRecord t := by
  cases h with
  | wait => exact fun hq => hrec (.inl (by simpa using hq))
  | launch => simp [RunRecord]
  | start => simp [RunRecord]
  | reject => simp [RunRecord]
  | finish hn => exact fun _ => hrec (.inl (busy_of_nextEvent_txDone hn))
  | secondSend _ hs => exact fun _ => hrec (.inl (by simp [hs]))

/-- The record is made by accepting a request, and not lost: the launch finds none. -/
theorem Move.started_iff {s t : State} (h : Move s t) :
    t.started = true ↔ s.started = true ∨ ∃ r, nextEvent s = some (.req r) := by
  cases h with
  | wait hn => simp [hn]
  | launch hn _ hst => simp [hn, hst]
  | start hn => simp [hn]
  | reject hn => simp [hn]
  | finish hn => simp [hn]
  | secondSend hn => simp [hn]

/-- Settles O46: at reset nothing is in flight or on the port, and each kind of step keeps the record. -/
theorem stepKeepsRunRecord : Obligations.StepKeepsRunRecord := by
  refine ⟨by simp [RunRecord, State.reset], fun s t hstep => ?_⟩
  have hm := move_of_step hstep
  exact ⟨hm.runRecord, hm.started_iff⟩

/-! Runs of two states seen alike. -/

/-- A run does not go on where no step does. -/
theorem traceRun_of_stuck {s : State} (h : ∀ t, step s ≠ .next t) (k : Nat) : traceRun (k + 1) s = none := by
  cases hr : traceRun (k + 1) s with
  | none => rfl
  | some p =>
    obtain ⟨t, -, hstep, -⟩ := traceRun_succ_cases hr
    exact absurd hstep (h t)

/-- What a run of one step more shows. -/
theorem traceRun_fst_of_next {s t : State} (k : Nat) (h : step s = .next t) :
    (traceRun (k + 1) s).map Prod.fst =
      ((traceRun k t).map Prod.fst).map fun ts => ⟨nextEvent s, t.output⟩ :: ts := by
  simp [traceRun_of_next k h, Function.comp_def]

theorem traceRun_fst_of_seenAlike (n : Nat) {s s' : State} (h : SeenAlike s s') :
    (traceRun n s').map Prod.fst = (traceRun n s).map Prod.fst := by
  induction n generalizing s s' with
  | zero => rfl
  | succ n ih =>
    obtain ⟨hn, hnext, hstuck⟩ := stepKeepsStatesSeenAlike s s' h
    by_cases hs : ∃ t, step s = .next t
    · obtain ⟨t, hstep⟩ := hs
      obtain ⟨t', hstep', hout, hseen⟩ := hnext t hstep
      rw [traceRun_fst_of_next n hstep, traceRun_fst_of_next n hstep', hn, hout, ih hseen]
    · have hs' : ∀ t, step s ≠ .next t := not_exists.1 hs
      rw [traceRun_of_stuck hs', traceRun_of_stuck (hstuck hs')]

/-- Settles O39: idle states with the same inputs are seen alike, and every step keeps them so. -/
theorem behaviourDependsOnlyOnTheInputs : Obligations.BehaviourDependsOnlyOnTheInputs := by
  intro s s' hs hs' hq ha hr hst n
  exact (traceRun_fst_of_seenAlike n ⟨hs'.trans hs.symm, hq, ha, hr, hst, absurd hs⟩).symm

/-! The operation level. -/

/-- The ways an operation can go (spec R32): rejected; ended by the answer to its first send; or, for an SDO, ended by
the answer to its second. `operation_runs` ties it to the model. -/
inductive OperationRuns (r : ReqWord) : List Answer → OperationRun → Prop
  | rejected {a : List Answer} (hr : opcode r ≠ .reserved) (hf : firstSend r = none) :
      OperationRuns r a ⟨[], .parameterError, a⟩
  | oneSend {w : Word} {b : Answer} {rest : List Answer} (hf : firstSend r = some w)
      (he : opcode r = .scr ∨ opcode r = .sco ∨ b = .fail) : OperationRuns r (b :: rest) ⟨[w], resultOf b, rest⟩
  | twoSends {w : Word} {b : Answer} {rest : List Answer} (hf : firstSend r = some w) (hr : opcode r = .sdo) :
      OperationRuns r (.ok :: b :: rest) ⟨[w, wEn1 (channelField r)], resultOf b, rest⟩

theorem lastSend_cases {w : Word} {a : List Answer} {run : OperationRun} (h : lastSend w a = some run) :
    ∃ b rest, a = b :: rest ∧ run = ⟨[w], resultOf b, rest⟩ := by
  cases a with
  | nil => cases h
  | cons b rest => exact ⟨b, rest, rfl, (Option.some.inj h).symm⟩

/-- A request of one of the three operations without a first send ends at once (spec R32). -/
theorem operation_of_rejected {r : ReqWord} (a : List Answer) (hr : opcode r ≠ .reserved) (hf : firstSend r = none) :
    operation r a = some ⟨[], .parameterError, a⟩ := by
  unfold operation
  cases ho : opcode r with
  | scr =>
    have hv : valid (channelField r) (valueField r) = false := by simpa [firstSend_of_checked (.inl ho)] using hf
    simp [hv]
  | sco => simp [firstSend_of_sco ho] at hf
  | sdo =>
    have hv : valid (channelField r) (valueField r) = false := by simpa [firstSend_of_checked (.inr ho)] using hf
    simp [hv]
  | reserved => exact absurd ho hr

/-- SCR and SCO end with the answer to their one send (spec R32). -/
theorem operation_of_oneSend {r : ReqWord} {w : Word} (a : List Answer) (ho : opcode r = .scr ∨ opcode r = .sco)
    (hf : firstSend r = some w) : operation r a = lastSend w a := by
  rcases ho with ho | ho
  · obtain ⟨hv, rfl⟩ : valid (channelField r) (valueField r) = true ∧ wReg (channelField r) (valueField r) = w := by
      simpa [firstSend_of_checked (.inl ho)] using hf
    simp [operation, ho, hv]
  · obtain rfl : valueField r = w := by simpa [firstSend_of_sco ho] using hf
    simp [operation, ho]

/-- An SDO with a first send ends with a fail to it, or with the answer to its second (spec R32). -/
theorem operation_of_sdo {r : ReqWord} {w : Word} {a : List Answer} {run : OperationRun} (ho : opcode r = .sdo)
    (hf : firstSend r = some w) (h : operation r a = some run) :
    (∃ rest, a = .fail :: rest ∧ run = ⟨[w], .transportError, rest⟩) ∨
    (∃ b rest, a = .ok :: b :: rest ∧ run = ⟨[w, wEn1 (channelField r)], resultOf b, rest⟩) := by
  obtain ⟨hv, rfl⟩ : valid (channelField r) (valueField r) = true ∧ wReg (channelField r) (valueField r) = w := by
    simpa [firstSend_of_checked (.inr ho)] using hf
  match a with
  | [] => simp [operation, ho, hv] at h
  | .fail :: rest => exact .inl ⟨rest, rfl, by simpa [operation, ho, hv, eq_comm] using h⟩
  | .ok :: rest =>
    cases hl : lastSend (wEn1 (channelField r)) rest with
    | none => simp [operation, ho, hv, hl] at h
    | some last =>
      obtain ⟨b, more, rfl, rfl⟩ := lastSend_cases hl
      exact .inr ⟨b, more, rfl, by simpa [operation, ho, hv, hl, eq_comm] using h⟩

theorem operation_runs {r : ReqWord} {a : List Answer} {run : OperationRun} (h : operation r a = some run) :
    OperationRuns r a run := by
  have hr : opcode r ≠ .reserved := fun ho => by simp [operation, ho] at h
  cases hf : firstSend r with
  | none =>
    cases (operation_of_rejected a hr hf).symm.trans h
    exact .rejected hr hf
  | some w =>
    by_cases ho : opcode r = .sdo
    · obtain ⟨rest, rfl, rfl⟩ | ⟨b, rest, rfl, rfl⟩ := operation_of_sdo ho hf h
      · exact .oneSend hf (.inr (.inr rfl))
      · exact .twoSends hf ho
    · have hone : opcode r = .scr ∨ opcode r = .sco := by cases hc : opcode r <;> simp_all
      rw [operation_of_oneSend a hone hf] at h
      obtain ⟨b, rest, rfl, rfl⟩ := lastSend_cases h
      exact .oneSend hf (hone.elim .inl fun hsco => .inr (.inl hsco))

theorem resultOf_eq_ok_iff (b : Answer) : resultOf b = .ok ↔ b = .ok := by
  cases b <;> simp [resultOf]

theorem resultOf_eq_transportError_iff (b : Answer) : resultOf b = .transportError ↔ b = .fail := by
  cases b <;> simp [resultOf]

theorem resultOf_ne_parameterError (b : Answer) : resultOf b ≠ .parameterError := by
  cases b <;> simp [resultOf]

/-- Answers that are oks but for a last fail: the last is a fail, and the others are oks. -/
theorem oks_then_fail_iff (earlier : List Answer) (b : Answer) :
    (∃ before, (∀ x ∈ before, x = .ok) ∧ earlier ++ [b] = before ++ [.fail]) ↔
      (∀ x ∈ earlier, x = .ok) ∧ b = .fail := by
  constructor
  · rintro ⟨before, hok, heq⟩
    obtain ⟨rfl, hb⟩ := List.append_inj' heq rfl
    exact ⟨hok, List.singleton_inj.1 hb⟩
  · rintro ⟨hok, rfl⟩
    exact ⟨earlier, hok, rfl⟩

/-- Settles O41: read off each way an operation can go. -/
theorem responseTellsWhatWasAnswered : Obligations.ResponseTellsWhatWasAnswered := by
  intro r a run h
  cases operation_runs h with
  | rejected => simp
  | @oneSend w b rest =>
    refine ⟨rfl, by simp [resultOf_ne_parameterError], by simp [resultOf_eq_ok_iff], ?_⟩
    simpa using (resultOf_eq_transportError_iff b).trans (by simpa using (oks_then_fail_iff [] b).symm)
  | @twoSends w b rest =>
    refine ⟨rfl, by simp [resultOf_ne_parameterError], by simp [resultOf_eq_ok_iff], ?_⟩
    simpa using (resultOf_eq_transportError_iff b).trans (by simpa using (oks_then_fail_iff [.ok] b).symm)

/-! The steps against the operation level. -/

/-- A run that begins with this step and its event. -/
theorem traceRun_of_move {s t u : State} {k : Nat} {ts : List Transition} {e : InputEvent} (hn : nextEvent s = some e)
    (hm : Move s t) (h : traceRun k t = some (ts, u)) :
    traceRun (k + 1) s = some (⟨some e, t.output⟩ :: ts, u) := by
  rw [traceRun_of_next k hm.step_eq, h, hn]
  rfl

/-- The run of the answer that ends the operation. -/
theorem traceRun_finish {s : State} {b : Answer} {more : List Answer} (hrst : s.rst = false) (he : AnswerEnds b s)
    (ha : s.answers = b :: more) :
    traceRun 1 s =
      some ([⟨some (.txDone b), some (.rsp (resultOf b))⟩], complete (resultOf b) (consume (.txDone b) s)) := by
  have hs : s.phase ≠ .idle := by rcases he with h | ⟨h, -⟩ <;> simp [h]
  have hn := nextEvent_of_answer hrst hs ha
  exact traceRun_of_move hn (.finish hn he) rfl

/-- A run that begins with the answer that starts the second send of an SDO. -/
theorem traceRun_secondSend {s u : State} {more : List Answer} {k : Nat} {ts : List Transition} (hrst : s.rst = false)
    (hs : s.phase = .tx1) (hr : opcode s.reqQ = .sdo) (ha : s.answers = .ok :: more)
    (h : traceRun k (startSend .tx2 (wEn1 (channelField s.reqQ)) (consume (.txDone .ok) s)) = some (ts, u)) :
    traceRun (k + 1) s = some (⟨some (.txDone .ok), some (.txStart (wEn1 (channelField s.reqQ)))⟩ :: ts, u) := by
  have hn := nextEvent_of_answer hrst (by simp [hs]) ha
  exact traceRun_of_move hn (.secondSend hn hs hr) h

/-- Settles O37: each way an operation can go is a run: the request, then an answer for each send. -/
theorem stepsRefineTheOperation : Obligations.StepsRefineTheOperation := by
  intro s r rest run hrst hs hq hop
  have hn := nextEvent_of_request hrst hs hq
  obtain ⟨a, ha⟩ : ∃ a, s.answers = a := ⟨_, rfl⟩
  rw [ha] at hop ⊢
  cases operation_runs hop with
  | rejected hr hf =>
    exact ⟨by simp, _, traceRun_of_move hn (.reject hn hr hf) rfl, rfl, hrst, by simp [hq], ha⟩
  | oneSend hf he =>
    have hrun := traceRun_of_move hn (.start hn hf) (traceRun_finish hrst (.inr ⟨rfl, he⟩) ha)
    exact ⟨by simp, _, hrun, rfl, hrst, by simp [hq], by simp [ha]⟩
  | twoSends hf hr =>
    have hrun := traceRun_of_move hn (.start hn hf) (traceRun_secondSend hrst rfl hr ha
      (traceRun_finish hrst (.inl rfl) (congrArg List.tail ha)))
    exact ⟨by simp, _, hrun, rfl, hrst, by simp [hq], by simp [ha]⟩

/-! Programs. -/

/-- An operation has an answer for each of its sends. -/
theorem OperationRuns.sent_length_le {r : ReqWord} {a : List Answer} {run : OperationRun} (h : OperationRuns r a run) :
    run.sent.length ≤ a.length := by
  cases h <;> simp

theorem outputsOf_append (ts us : List Transition) : outputsOf (ts ++ us) = outputsOf ts ++ outputsOf us :=
  List.filterMap_append

/-- With an input for each output no output is lost. -/
theorem outputsOf_transitions {inputs : List InputEvent} {outputs : List OutputEvent}
    (h : outputs.length ≤ inputs.length) : outputsOf (transitions inputs outputs) = outputs := by
  induction inputs generalizing outputs with
  | nil => simpa [transitions, outputsOf] using h
  | cons e es ih =>
    cases outputs with
    | nil => rfl
    | cons o os => exact congrArg (o :: ·) (ih (Nat.le_of_succ_le_succ h))

theorem program_cons {r : ReqWord} {rs : List ReqWord} {a left : List Answer} {events : List OutputEvent}
    (h : program (r :: rs) a = some (events, left)) :
    ∃ run later, operation r a = some run ∧ program rs run.left = some (later, left) ∧
      events = run.outputs ++ later := by
  rw [program] at h
  cases hop : operation r a with
  | none => simp [hop] at h
  | some run =>
    cases hp : program rs run.left with
    | none => simp [hop, hp] at h
    | some p =>
      obtain ⟨rfl, rfl⟩ : run.outputs ++ p.1 = events ∧ p.2 = left := by simpa [hop, hp] using h
      exact ⟨run, p.1, rfl, hp, rfl⟩

/-- One operation as a run: as many steps as it has outputs, and these outputs (spec R33). -/
theorem exists_run_of_operation {s : State} {r : ReqWord} {rest : List ReqWord} {run : OperationRun}
    (hrst : s.rst = false) (hs : s.phase = .idle) (hq : s.requests = r :: rest)
    (hop : operation r s.answers = some run) :
    ∃ ts t, traceRun run.outputs.length s = some (ts, t) ∧ outputsOf ts = run.outputs ∧
      t.phase = .idle ∧ t.rst = false ∧ t.requests = rest ∧ t.answers = run.left := by
  obtain ⟨-, t, htrace, ht⟩ := stepsRefineTheOperation s r rest run hrst hs hq hop
  have hlen : run.outputs.length = run.sent.length + 1 := by simp [OperationRun.outputs]
  have hsent := (operation_runs hop).sent_length_le
  exact ⟨_, t, hlen ▸ htrace, outputsOf_transitions (by simp [hlen, hsent]), ht⟩

/-- Settles O38, by induction on the requests: the run of the first operation, then that of the others. -/
theorem programRunIsItsOperationsInOrder : Obligations.ProgramRunIsItsOperationsInOrder := by
  intro s events left hrst hs hprog
  generalize hq : s.requests = requests at hprog
  induction requests generalizing s events with
  | nil =>
    obtain ⟨rfl, rfl⟩ : [] = events ∧ s.answers = left := by simpa [program] using hprog
    exact ⟨[], s, rfl, rfl, ⟨hs, hq⟩, rfl⟩
  | cons r rest ih =>
    obtain ⟨run, later, hop, hlater, rfl⟩ := program_cons hprog
    obtain ⟨ts, t, htrace, hout, ht, htrst, htq, hta⟩ := exists_run_of_operation hrst hs hq hop
    obtain ⟨us, u, hutrace, huout, hended, hleft⟩ := ih t later htrst ht htq (hta ▸ hlater)
    refine ⟨ts ++ us, u, ?_, by rw [outputsOf_append, hout, huout], hended, hleft⟩
    rw [List.length_append]
    exact traceRun_add htrace hutrace

end Machine

end Sys2Proof

/-! The memory family (spec R40, R44, R50, R57 to R59): the channel map, the words each operation can send, the two
claims about the device, and the bus order. -/

namespace Sys2Proof

namespace Machine

open Sys2Proof.Safety

/-! The channel map. -/

/-- A value of 12 bits passes the mask whole (spec R70). -/
theorem and_valueMask_of_le {v : ValueOperand} (h : v.toNat ≤ 4095) : v &&& valueMask = v := by
  apply BitVec.eq_of_toNat_eq
  rw [BitVec.toNat_and, show valueMask.toNat = 2 ^ 12 - 1 from rfl, Nat.and_two_pow_sub_one_eq_mod]
  exact Nat.mod_eq_of_lt (by omega)

theorem topNibble_of_le {v : ValueOperand} (h : v.toNat ≤ 4095) : v.extractLsb' 12 4 = 0#4 := by
  apply BitVec.eq_of_toNat_eq
  simp [BitVec.extractLsb'_toNat, Nat.shiftRight_eq_div_pow]
  omega

/-- A legal value leaves the channel's base to the top nibble of W_REG and fills the rest (spec R50, R75). -/
theorem wReg_of_base {c : ChannelOperand} {base : Word} {v : ValueOperand}
    (hbase : tagWriteReg ||| ((c.setWidth 16 &&& channelMask) <<< 12) = base) (hv : v.toNat ≤ 4095) :
    wReg c v = base ||| v ∧ (wReg c v).extractLsb' 12 4 = base.extractLsb' 12 4 := by
  have hword : wReg c v = base ||| v := by rw [wReg, and_valueMask_of_le hv, hbase]
  refine ⟨hword, ?_⟩
  rw [hword, BitVec.extractLsb'_or, topNibble_of_le hv, BitVec.or_zero]

/-- Settles O16: of each row only the constants are evaluated; `wReg_of_base` brings in the value. -/
theorem channelMapRows : Obligations.ChannelMapRows := by
  intro c base enable flag hrow
  have hconst : wEn1 c = enable ∧ channelFlag c.toNat = flag ∧
      tagWriteReg ||| ((c.setWidth 16 &&& channelMask) <<< 12) = base ∧
      base.extractLsb' 12 4 = 0x8#4 + c.setWidth 4 := by
    simp only [List.mem_cons, Prod.mk.injEq, List.not_mem_nil, or_false] at hrow
    rcases hrow with ⟨rfl, rfl, rfl, rfl⟩ | ⟨rfl, rfl, rfl, rfl⟩ | ⟨rfl, rfl, rfl, rfl⟩ | ⟨rfl, rfl, rfl, rfl⟩ |
      ⟨rfl, rfl, rfl, rfl⟩ | ⟨rfl, rfl, rfl, rfl⟩ | ⟨rfl, rfl, rfl, rfl⟩ | ⟨rfl, rfl, rfl, rfl⟩ <;> decide
  obtain ⟨henable, hflag, hbase, hnibble⟩ := hconst
  refine ⟨henable, hflag, fun v hv => ?_⟩
  obtain ⟨hword, htop⟩ := wReg_of_base hbase hv
  exact ⟨hword, htop.trans hnibble⟩

/-! The words each operation can send first. -/

/-- Every word with bit 15 set is W_REG of valid operands: its own two fields, widened (spec R67). -/
theorem exists_valid_wReg_of_bit15 {w : Word} (h : w.getLsbD 15 = true) :
    ∃ c v, valid c v = true ∧ wReg c v = w := by
  have hc := (w.extractLsb' 12 3).isLt
  have hv := (w.extractLsb' 0 12).isLt
  refine ⟨(w.extractLsb' 12 3).setWidth 8, (w.extractLsb' 0 12).setWidth 16, ?_, ?_⟩
  · rw [valid, BitVec.toNat_setWidth_of_le (by decide), BitVec.toNat_setWidth_of_le (by decide), Bool.and_eq_true,
      decide_eq_true_eq, decide_eq_true_eq]
    omega
  · rw [wReg_eq_layout, BitVec.setWidth_setWidth_of_le _ (by decide), BitVec.setWidth_setWidth_of_le _ (by decide),
      BitVec.setWidth_eq, BitVec.setWidth_eq, registerWriteLayout_of_bit15 h]

/-- An operation that checks its operands sends exactly the words with bit 15 set first (spec R40(b)). -/
theorem bit15_iff_exists_firstSend {op : BitVec 2}
    (hop : ∀ c v, opcode (requestWord op c v) = .scr ∨ opcode (requestWord op c v) = .sdo) (w : Word) :
    w.getLsbD 15 = true ↔ ∃ c v, firstSend (requestWord op c v) = some w := by
  constructor
  · intro h
    obtain ⟨c, v, hvalid, rfl⟩ := exists_valid_wReg_of_bit15 h
    exact ⟨c, v, by simp [firstSend_of_checked (hop c v), hvalid]⟩
  · rintro ⟨c, v, h⟩
    rcases firstSend_cases h with ⟨hsco, -⟩ | ⟨-, -, rfl⟩
    · rcases hop c v with ho | ho <;> simp [ho] at hsco
    · exact wReg_bit15 _ _

/-- Settles O18. -/
theorem reachableCommandWords : Obligations.ReachableCommandWords :=
  ⟨bit15_iff_exists_firstSend fun c v => .inl (opcode_requestWord_scr c v),
   bit15_iff_exists_firstSend fun c v => .inr (opcode_requestWord_sdo c v),
   fun w c => by rw [firstSend_of_sco (opcode_requestWord_sco c w), valueField_requestWord]⟩

/-! The claims about the device. -/

@[simp] theorem Device.select_regs (w : Word) (d : Device) : (d.select w).regs = d.regs := rfl

theorem Device.writeRegister_regs_same {c : ChannelOperand} (h : c.toNat < 8) (v : ValueOperand) (d : Device) :
    (d.writeRegister c v).regs[c.toNat]'h = v.setWidth 12 := by
  simp [Device.writeRegister]

/-- A device with every register zero and every output off. -/
def Device.blank : Device :=
  { regs := Vector.replicate 8 0#12
    enabled := Vector.replicate 8 false
    shown := Vector.replicate 8 0#12 }

/-- Settles O44: SCR 2, 7 and SCO 0xA007 send one word, after which register 2 of a blank device would have to hold 7
by the first claim and still 0 by the second. -/
theorem noWordDrivenDeviceMeetsBothClaims : Obligations.NoWordDrivenDeviceMeetsBothClaims := by
  rintro ⟨reaction, hscr, hsco⟩
  have hword : wReg 2#8 7#16 = 0xA007#16 := by decide
  have hwritten : reaction 0xA007#16 .blank = Device.blank.writeRegister 2#8 7#16 :=
    hword ▸ hscr 2#8 7#16 .blank (by decide)
  have hselected : reaction 0xA007#16 .blank = Device.blank.select 0xA007#16 :=
    hsco 0#8 0xA007#16 .blank (by decide)
  have hregs : (Device.blank.writeRegister 2#8 7#16).regs = Device.blank.regs := by
    rw [← hwritten, hselected, Device.select_regs]
  have hseven : (7#16 : ValueOperand).setWidth 12 = Device.blank.regs[2] :=
    (Device.writeRegister_regs_same (c := 2#8) (by decide) 7#16 .blank).symm.trans (by simp [hregs])
  simp [Device.blank] at hseven

/-! The bus order. -/

/-- The receiver shifts its word up and takes the bit that arrives at the bottom (spec R44). -/
theorem wordFromBus_concat (bits : List Bool) (b : Bool) :
    wordFromBus (bits ++ [b]) = (wordFromBus bits <<< 1) ||| (BitVec.ofBool b).setWidth 16 := by
  simp [wordFromBus, List.foldl_append]

/-- Shifting in the next lower bit of a word takes the word one place further. -/
theorem shiftIn_getLsbD (w : Word) (n : Nat) :
    ((w >>> (n + 1)) <<< 1) ||| (BitVec.ofBool (w.getLsbD n)).setWidth 16 = w >>> n := by
  apply BitVec.eq_of_getLsbD_eq
  intro k hk
  cases k with
  | zero => simp
  | succ k => simp [hk, Nat.add_comm, Nat.add_left_comm]

/-- After its first `n` bits the receiver holds the upper `n` bits of the word. -/
theorem wordFromBus_prefix (w : Word) (n : Nat) (h : n ≤ 16) :
    wordFromBus ((List.range n).map fun k => w.getLsbD (15 - k)) = w >>> (16 - n) := by
  induction n with
  | zero => exact (BitVec.ushiftRight_eq_zero le_rfl).symm
  | succ n ih =>
    have hbefore : 16 - n = (15 - n) + 1 := by omega
    have hafter : 16 - (n + 1) = 15 - n := by omega
    rw [List.range_succ, List.map_append, List.map_singleton, wordFromBus_concat, ih (by omega), hbefore, hafter]
    exact shiftIn_getLsbD w (15 - n)

/-- Settles O45: the word comes back as the prefix of all 16 bits (`wordFromBus_prefix`). -/
theorem busCarriesTheWordMostSignificantFirst : Obligations.BusCarriesTheWordMostSignificantFirst := by
  intro w
  refine ⟨by simp [bitsOnBus], fun k hk => by simp [bitsOnBus, hk], ?_⟩
  exact (wordFromBus_prefix w 16 le_rfl).trans (BitVec.ushiftRight_zero w)

end Machine

end Sys2Proof

/-! The encoding family (spec R62 to R78): decoder and encoder, the fields of the two command-word layouts, the two
word formulas, validation, and the enable words. -/

namespace Sys2Proof

/-! Request words, decoded and encoded again. -/

/-- No bit of a request word is lost: decoding keeps the operands as they stand (spec R64). -/
theorem encode_decodeRequest (r : ReqWord) : encode (decodeRequest r) = .request r := by
  cases ho : opcode r with
  | scr => rw [decodeRequest_of_scr ho]; exact congrArg EncodedWord.request (requestWord_of_scr ho)
  | sco => rw [decodeRequest_of_sco ho]; exact congrArg EncodedWord.request (requestWord_of_sco ho)
  | sdo => rw [decodeRequest_of_sdo ho]; exact congrArg EncodedWord.request (requestWord_of_sdo ho)
  | reserved => rw [decodeRequest_of_reserved ho]; exact congrArg EncodedWord.request (requestWord_of_reserved ho)

theorem decode_of_encode_request {i : Instr} {r : ReqWord} (h : encode i = .request r) : decode (encode i) = .ok i := by
  rw [h]
  exact congrArg Except.ok (decodeRequest_of_encode h)

/-- A term that is not canonical is a command word's (spec R78; assumption log 13). -/
theorem decodeRequest_canonical (r : ReqWord) : (decodeRequest r).canonical = true := by
  unfold decodeRequest
  cases opcode r <;> rfl

/-- A request of one of the three operations is well formed, whatever its operands (spec R64). -/
theorem decodeRequest_wellFormed {r : ReqWord} (h : opcode r ≠ .reserved) : (decodeRequest r).wellFormed = true := by
  rw [Instr.wellFormed, (decodeRequest_admitted_iff r).2 h, decodeRequest_canonical, Bool.and_self]

/-! The two command-word layouts: each as a number, and its fields read off the number. -/

theorem registerWriteLayout_toNat (c : BitVec 3) (v : BitVec 12) :
    (registerWriteLayout c v).toNat = 0x8000 + 0x1000 * c.toNat + v.toNat := by
  have hc : 2 ^ 12 * c.toNat < 2 ^ 15 := by omega
  have hplaced : c.toNat <<< 12 % 2 ^ 16 = 2 ^ 12 * c.toNat := by rw [Nat.shiftLeft_eq]; omega
  have hor : (registerWriteLayout c v).toNat = 2 ^ 15 * 1 ||| 2 ^ 12 * c.toNat ||| v.toNat := by
    rw [registerWriteLayout, BitVec.toNat_or, BitVec.toNat_or, BitVec.toNat_shiftLeft,
      BitVec.toNat_setWidth_of_le (by decide), BitVec.toNat_setWidth_of_le (by decide), hplaced]
    rfl
  calc (registerWriteLayout c v).toNat
      = (2 ^ 15 * 1 + 2 ^ 12 * c.toNat) ||| v.toNat := by rw [hor, Nat.two_pow_add_eq_or_of_lt hc]
    _ = 2 ^ 12 * (8 + c.toNat) ||| v.toNat := by congr 1; ring
    _ = 2 ^ 12 * (8 + c.toNat) + v.toNat := (Nat.two_pow_add_eq_or_of_lt v.isLt _).symm
    _ = 0x8000 + 0x1000 * c.toNat + v.toNat := by ring

@[simp] theorem registerWriteLayout_bit15 (c : BitVec 3) (v : BitVec 12) :
    (registerWriteLayout c v).getLsbD 15 = true := by
  simp [registerWriteLayout]

@[simp] theorem registerWriteLayout_channel (c : BitVec 3) (v : BitVec 12) :
    (registerWriteLayout c v).extractLsb' 12 3 = c := by
  apply BitVec.eq_of_toNat_eq
  rw [BitVec.extractLsb'_toNat, registerWriteLayout_toNat, Nat.shiftRight_eq_div_pow]
  omega

@[simp] theorem registerWriteLayout_value (c : BitVec 3) (v : BitVec 12) :
    (registerWriteLayout c v).extractLsb' 0 12 = v := by
  apply BitVec.eq_of_toNat_eq
  rw [BitVec.extractLsb'_toNat, registerWriteLayout_toNat, Nat.shiftRight_eq_div_pow]
  omega

theorem outputEnableLayout_toNat (e : BitVec 8) : (outputEnableLayout e).toNat = 0xA000 + e.toNat := by
  revert e; decide

@[simp] theorem outputEnableLayout_upperByte (e : BitVec 8) : (outputEnableLayout e).extractLsb' 8 8 = 0xA0#8 := by
  revert e; decide

@[simp] theorem outputEnableLayout_mask (e : BitVec 8) : (outputEnableLayout e).extractLsb' 0 8 = e := by
  revert e; decide

/-- A register-write word matches the enable layout too exactly on channel 2 with a value below 256 (spec R78). -/
theorem registerWriteLayout_upperByte_iff (c : BitVec 3) (v : BitVec 12) :
    (registerWriteLayout c v).extractLsb' 8 8 = 0xA0#8 ↔ c = 2#3 ∧ v.toNat < 256 := by
  rw [← BitVec.toNat_inj, ← BitVec.toNat_inj, BitVec.extractLsb'_toNat, registerWriteLayout_toNat,
    Nat.shiftRight_eq_div_pow, BitVec.toNat_ofNat, BitVec.toNat_ofNat]
  omega

/-- The word of both layouts (spec R78(a)). -/
theorem registerWriteLayout_two {v : BitVec 12} (h : v.toNat < 256) :
    registerWriteLayout 2#3 v = outputEnableLayout (v.setWidth 8) := by
  apply BitVec.eq_of_toNat_eq
  rw [registerWriteLayout_toNat, outputEnableLayout_toNat, BitVec.toNat_setWidth, Nat.mod_eq_of_lt h]
  rfl

/-! Command words, encoded and decoded again. -/

theorem decodeCommand_outputEnableLayout (e : BitVec 8) : decodeCommand (outputEnableLayout e) = .ok (.cwEn e) := by
  simp [decodeCommand]

theorem decodeCommand_registerWriteLayout {c : BitVec 3} {v : BitVec 12} (h : ¬ (c = 2#3 ∧ v.toNat < 256)) :
    decodeCommand (registerWriteLayout c v) = .ok (.cwReg c v) := by
  rw [decodeCommand, if_neg (mt (registerWriteLayout_upperByte_iff c v).1 h), if_pos (registerWriteLayout_bit15 c v),
    registerWriteLayout_channel, registerWriteLayout_value]

/-- The canonical register-write terms are those whose word has no other layout (spec R78; assumption log 13). -/
theorem cwReg_canonical_iff (c : BitVec 3) (v : BitVec 12) :
    (Instr.cwReg c v).canonical = true ↔ ¬ (c = 2#3 ∧ v.toNat < 256) := by
  simp [Instr.canonical, imp_iff_not_or]

/-- Settles O5: a request by its fields, an enable word by its layout, a register-write word because its term is
canonical. -/
theorem decodeOfEncodeGivesTheInstruction : Obligations.DecodeOfEncodeGivesTheInstruction := by
  refine ⟨fun i hi => ?wellFormed, fun c v => decode_of_encode_request rfl, fun v hv => ?aliased⟩
  case wellFormed =>
    obtain ⟨-, hcanonical⟩ := Bool.and_eq_true_iff.1 hi
    cases i with
    | scr c v => exact decode_of_encode_request rfl
    | sco c w => exact decode_of_encode_request rfl
    | sdo c v => exact decode_of_encode_request rfl
    | reservedOp3 c v => exact decode_of_encode_request rfl
    | cwReg c v => exact decodeCommand_registerWriteLayout ((cwReg_canonical_iff c v).1 hcanonical)
    | cwEn e => exact decodeCommand_outputEnableLayout e
  case aliased =>
    rw [encode, registerWriteLayout_two hv]
    exact decodeCommand_outputEnableLayout _

/-- Settles O6: both ports keep every bit of their word. -/
theorem encodeOfDecodeGivesTheWord : Obligations.EncodeOfDecodeGivesTheWord := by
  intro e i h
  cases e with
  | request r =>
    obtain rfl : decodeRequest r = i := Except.ok.inj h
    exact encode_decodeRequest r
  | command w => exact encode_of_decodeCommand h

/-- Settles O3: the decoder run on each word. -/
theorem sampleWordsDecode : Obligations.SampleWordsDecode := by
  unfold Obligations.SampleWordsDecode
  decide

namespace Machine

open Sys2Proof.Safety

/-! What the decoded request means. -/

/-- Settles O4: the operation is read off the two bits alone, and an operand out of range is left to the operation. -/
theorem requestDecodingIsATwoBitCase : Obligations.RequestDecodingIsATwoBitCase := by
  refine ⟨fun r => ⟨fun h => ?_, fun h => ?_, fun h => ?_, fun h => ?_, fun h => ?_⟩, fun r r' h => ?_,
    fun r s h hs hv => ?_⟩
  · exact decodeRequest_of_scr ((opcode_scr_iff r).2 h)
  · exact decodeRequest_of_sco ((opcode_sco_iff r).2 h)
  · exact decodeRequest_of_sdo ((opcode_sdo_iff r).2 h)
  · exact decodeRequest_of_reserved ((opcode_reserved_iff r).2 h)
  · exact decodeRequest_wellFormed (mt (opcode_reserved_iff r).1 h)
  · rw [opcode, h, opcode]
  · exact exec_responds_of_outOfRange (encode_decodeRequest r) hs (opcode_checked_of_opField h) hv

/-- Settles O27: the meaning refuses, and the step of an idle block is the meaning of the request presented. -/
theorem reservedOperationIsRefused : Obligations.ReservedOperationIsRefused := by
  refine ⟨fun s c v => rfl, fun s r rest hr hs hq ho => ?_⟩
  rw [stepRunsTheAcceptedRequest s r rest hr hs hq, decodeRequest_of_reserved ((opcode_reserved_iff r).2 ho)]
  rfl

/-! W_REG. -/

/-- A channel in range passes the mask whole (spec R70). -/
theorem and_seven_of_le {c : ChannelOperand} (h : c.toNat ≤ 7) : c &&& 0x7#8 = c := by
  rcases channel_cases h with rfl | rfl | rfl | rfl | rfl | rfl | rfl | rfl <;> rfl

theorem setWidth_and_channelMask_of_le {c : ChannelOperand} (h : c.toNat ≤ 7) :
    c.setWidth 16 &&& channelMask = c.setWidth 16 := by
  rw [show channelMask = (0x7#8).setWidth 16 from rfl, ← BitVec.setWidth_and, and_seven_of_le h]

/-- On validated operands W_REG is the sum of its parts (spec R70). -/
theorem wReg_toNat_of_inRange {c : ChannelOperand} {v : ValueOperand} (h : InRange c v) :
    (wReg c v).toNat = 0x8000 + 0x1000 * c.toNat + v.toNat := by
  obtain ⟨hc, hv⟩ := h
  rw [wReg_eq_layout, registerWriteLayout_toNat, BitVec.toNat_setWidth, BitVec.toNat_setWidth,
    Nat.mod_eq_of_lt (by omega), Nat.mod_eq_of_lt (by omega)]

/-- Settles O10: both masks keep their operand whole. -/
theorem registerWriteWordClosedForm : Obligations.RegisterWriteWordClosedForm := by
  intro c v h
  have ⟨hc, hv⟩ := h
  have hbase : tagWriteReg ||| ((c.setWidth 16 &&& channelMask) <<< 12) = 0x8000#16 ||| (c.setWidth 16 <<< 12) := by
    rw [setWidth_and_channelMask_of_le hc]
    rfl
  exact ⟨and_seven_of_le hc, and_valueMask_of_le hv, (wReg_of_base hbase hv).1, wReg_toNat_of_inRange h⟩

/-- Settles O11: the fields come back from the layout, and the layout from its fields. -/
theorem registerWriteLayoutIsOnePairPerWord : Obligations.RegisterWriteLayoutIsOnePairPerWord := by
  refine ⟨fun c v => ⟨?_, ?_, ?_⟩, wReg_eq_layout, fun w hw c v => ⟨?_, ?_⟩⟩
  · exact registerWriteLayout_bit15 c v
  · exact registerWriteLayout_channel c v
  · exact registerWriteLayout_value c v
  · rintro rfl
    exact ⟨(registerWriteLayout_channel c v).symm, (registerWriteLayout_value c v).symm⟩
  · rintro ⟨rfl, rfl⟩
    exact registerWriteLayout_of_bit15 hw

/-- The masked channel, shifted into place, stays below the tag (spec R73). -/
theorem shiftedChannel_le (n : Nat) : (n &&& 0x7) <<< 12 ≤ 0x7000 := by
  have hmask : n &&& 0x7 ≤ 0x7 := Nat.and_le_right
  rw [Nat.shiftLeft_eq]
  omega

theorem wReg_toNat (c : ChannelOperand) (v : ValueOperand) :
    (wReg c v).toNat = (0x8 <<< 12) ||| ((c.toNat &&& 0x7) <<< 12) ||| (v.toNat &&& 0xFFF) := by
  have hfits : (c.toNat &&& 0x7) <<< 12 % 2 ^ 16 = (c.toNat &&& 0x7) <<< 12 :=
    Nat.mod_eq_of_lt (by have := shiftedChannel_le c.toNat; omega)
  rw [wReg, BitVec.toNat_or, BitVec.toNat_or, BitVec.toNat_shiftLeft, BitVec.toNat_and, BitVec.toNat_and,
    BitVec.toNat_setWidth_of_le (by decide), show channelMask.toNat = 0x7 from rfl, hfits]
  rfl

/-- The flag of a channel lies within the mask of an enable word (spec R73). -/
theorem one_shiftLeft_le {n : Nat} (h : n ≤ 7) : 1 <<< n ≤ 0x0080 := by
  rw [Nat.one_shiftLeft]
  exact Nat.pow_le_pow_right (by decide) h

theorem channelFlag_toNat {n : Nat} (h : n ≤ 7) : (channelFlag n).toNat = 1 <<< n := by
  have hfits : 1 <<< n < 2 ^ 16 := (one_shiftLeft_le h).trans_lt (by decide)
  rw [channelFlag, BitVec.toNat_shiftLeft]
  exact Nat.mod_eq_of_lt hfits

/-- Settles O12: the shifted channel and the shifted flag fit in the word. -/
theorem wordArithmeticLosesNoBit : Obligations.WordArithmeticLosesNoBit := by
  refine ⟨fun c v => ⟨wReg_toNat c v, shiftedChannel_le c.toNat, Nat.and_le_right⟩,
    fun c hc => ⟨?_, one_shiftLeft_le hc⟩⟩
  rw [wEn1_of_le hc, BitVec.toNat_or, channelFlag_toNat hc]
  rfl

/-! Validation. -/

/-- The bounds are a check of the fields' upper bits (spec R74). -/
theorem inRange_iff_upperBits (r : ReqWord) :
    InRange (channelField r) (valueField r) ↔ r.extractLsb' 19 5 = 0b00000#5 ∧ r.extractLsb' 12 4 = 0b0000#4 := by
  rw [← BitVec.toNat_inj, ← BitVec.toNat_inj]
  simp only [InRange, channelField, valueField, BitVec.extractLsb'_toNat, Nat.shiftRight_eq_div_pow,
    BitVec.toNat_ofNat]
  omega

theorem firstSend_ne_none_iff {r : ReqWord} (h : opcode r = .scr ∨ opcode r = .sdo) :
    firstSend r ≠ none ↔ valid (channelField r) (valueField r) = true := by
  simp [firstSend_of_checked h]

/-- Settles O14: the bounds and the upper bits say the same, and only SCR and SDO ask for them. -/
theorem validationReadsTheUpperBits : Obligations.ValidationReadsTheUpperBits := by
  refine fun r => ⟨valid_iff _ _, (valid_iff _ _).trans (inRange_iff_upperBits r), fun h => ?_, fun h => ?_⟩
  · exact firstSend_of_sco ((opcode_sco_iff r).2 h)
  · exact firstSend_ne_none_iff (opcode_checked_of_opField h)

/-! Enable words. -/

/-- The conforming words are those with `0xA0` in the upper byte (spec R68). -/
theorem conforming_iff (w : Word) : conforming w = true ↔ w.extractLsb' 8 8 = 0xA0#8 := by
  rw [conforming, Bool.and_eq_true, beq_iff_eq, beq_iff_eq, ← BitVec.toNat_inj, ← BitVec.toNat_inj,
    ← BitVec.toNat_inj]
  simp only [BitVec.extractLsb'_toNat, Nat.shiftRight_eq_div_pow, BitVec.toNat_ofNat]
  omega

theorem conforming_outputEnableLayout (e : BitVec 8) : conforming (outputEnableLayout e) = true :=
  (conforming_iff _).2 (outputEnableLayout_upperByte e)

/-- A conforming word is a register-write word of channel 2 (spec R78). -/
theorem eq_registerWriteLayout_of_conforming {w : Word} (h : conforming w = true) :
    w = registerWriteLayout 2#3 (w.extractLsb' 0 12) := by
  have hupper : w.toNat / 2 ^ 8 % 2 ^ 8 = 0xA0 := by
    simpa [BitVec.extractLsb'_toNat, Nat.shiftRight_eq_div_pow] using congrArg BitVec.toNat ((conforming_iff w).1 h)
  apply BitVec.eq_of_toNat_eq
  rw [registerWriteLayout_toNat, BitVec.extractLsb'_toNat, Nat.shiftRight_eq_div_pow, BitVec.toNat_ofNat]
  omega

theorem wReg_two {v : ValueOperand} (h : v.toNat ≤ 4095) : wReg 2#8 v = tagUpdateSelect ||| v :=
  (wReg_of_base (by decide) h).1

/-- On channel 2 a value of 8 bits is the mask of an enable word (spec R78(a)). -/
theorem wReg_two_eq_outputEnableLayout {v : ValueOperand} (h : v.toNat ≤ 255) :
    wReg 2#8 v = outputEnableLayout (v.setWidth 8) := by
  have hmask : (v.setWidth 8).setWidth 16 = v := by
    apply BitVec.eq_of_toNat_eq
    rw [BitVec.toNat_setWidth_of_le (by decide), BitVec.toNat_setWidth, Nat.mod_eq_of_lt (by omega)]
  rw [wReg_two (by omega), outputEnableLayout, hmask]
  rfl

/-- Settles O15: on channel 2 the masks leave the tag `0xA000` and the value. -/
theorem layoutsAliasOnChannelTwo : Obligations.LayoutsAliasOnChannelTwo := by
  refine ⟨fun v hv => ⟨wReg_two (by omega), ?_, ?_, ?_⟩, fun c hc => ?_, fun w hw => ?_⟩
  · rw [wReg_two_eq_outputEnableLayout hv, conforming_outputEnableLayout]
  · rw [wReg_two_eq_outputEnableLayout hv, outputEnableLayout_mask]
  · have hvalid : valid 2#8 v = true := (valid_iff _ _).2 ⟨by decide, by omega⟩
    simp [firstSend, hvalid, wReg_two (v := v) (by omega), tagUpdateSelect]
  · have hflag : (channelFlag c.toNat).toNat ≤ 4095 := by
      rw [channelFlag_toNat hc]
      exact (one_shiftLeft_le hc).trans (by decide)
    rw [wEn1_of_le hc]
    exact (wReg_two hflag).symm
  · have hlayout := eq_registerWriteLayout_of_conforming hw
    exact ⟨hlayout ▸ registerWriteLayout_bit15 _ _, hlayout⟩

theorem channelFlag_upperByte (n : Fin 8) : (channelFlag n.val).extractLsb' 8 8 = 0#8 := by
  revert n; decide

theorem channelFlag_getLsbD (m n : Fin 8) : (channelFlag m.val).getLsbD n.val = decide (n = m) := by
  revert m n; decide

/-- A channel's flag leaves the tag in the upper byte alone (spec R76). -/
theorem enableWordFor_upperByte (S : List (Fin 8)) : (enableWordFor S).extractLsb' 8 8 = 0xA0#8 := by
  induction S with
  | nil => decide
  | cons m S ih => rw [enableWordFor, BitVec.extractLsb'_or, channelFlag_upperByte, ih, BitVec.zero_or]

theorem conforming_enableWordFor (S : List (Fin 8)) : conforming (enableWordFor S) = true :=
  (conforming_iff _).2 (enableWordFor_upperByte S)

/-- The bits below the tag are the channels listed (spec R68, R76). -/
theorem enableWordFor_getLsbD_iff (S : List (Fin 8)) (n : Fin 8) :
    (enableWordFor S).getLsbD n.val = true ↔ n ∈ S := by
  induction S with
  | nil =>
    have htag : ∀ k : Fin 8, tagUpdateSelect.getLsbD k.val = false := by decide
    simp [enableWordFor, htag]
  | cons m S ih =>
    rw [enableWordFor, BitVec.getLsbD_or, channelFlag_getLsbD, Bool.or_eq_true, decide_eq_true_iff, ih, List.mem_cons]

/-- Settles O17, by induction on the list of channels. -/
theorem enableWordOfAChannelSet : Obligations.EnableWordOfAChannelSet :=
  ⟨fun S => ⟨conforming_enableWordFor S, enableWordFor_getLsbD_iff S⟩, by decide⟩

/-- W_EN1 is the enable word of the one channel (spec R71, R76). -/
theorem wEn1_eq_enableWordFor {c : ChannelOperand} (h : c.toNat ≤ 7) :
    wEn1 c = enableWordFor [⟨c.toNat, Nat.lt_succ_of_le h⟩] :=
  (wEn1_of_le h).trans (BitVec.or_comm _ _)

/-- Settles O13: the enable word of one channel is that of the list with it alone. -/
theorem singleChannelEnableWord : Obligations.SingleChannelEnableWord := by
  intro c hc
  refine ⟨wEn1_of_le hc, ?_, fun n hn => ?_, ?_⟩
  · rw [wEn1_eq_enableWordFor hc, conforming_enableWordFor]
  · rw [wEn1_eq_enableWordFor hc]
    simpa using enableWordFor_getLsbD_iff [⟨c.toNat, Nat.lt_succ_of_le hc⟩] ⟨n, Nat.lt_succ_of_le hn⟩
  · rw [wEn1_eq_enableWordFor hc]
    generalize Fin.mk c.toNat _ = m
    revert m; decide

end Machine

end Sys2Proof

/-! The family of SetChannelRegister (spec R81 to R88): from its request to its response. -/

namespace Sys2Proof

namespace Machine

open Sys2Proof.Safety

theorem firstSend_of_outOfRange {r : ReqWord} (ho : opcode r = .scr ∨ opcode r = .sdo)
    (hv : ¬ InRange (channelField r) (valueField r)) : firstSend r = none := by
  rw [firstSend_of_checked ho, if_neg (mt (valid_iff _ _).1 hv)]

theorem firstSend_of_inRange {r : ReqWord} (ho : opcode r = .scr ∨ opcode r = .sdo)
    (hv : InRange (channelField r) (valueField r)) : firstSend r = some (wReg (channelField r) (valueField r)) := by
  rw [firstSend_of_checked ho, if_pos ((valid_iff _ _).2 hv)]

/-- A checked request with an operand out of range is over in one step: no send, no answer taken (spec R83). -/
theorem exists_run_of_outOfRange {s : State} {r : ReqWord} {rest : List ReqWord} (hrst : s.rst = false)
    (hs : s.phase = .idle) (hq : s.requests = r :: rest) (ho : opcode r = .scr ∨ opcode r = .sdo)
    (hv : ¬ InRange (channelField r) (valueField r)) :
    ∃ t, traceRun 1 s = some ([⟨some (.req r), some (.rsp .parameterError)⟩], t) ∧
      t.phase = .idle ∧ t.requests = rest ∧ t.answers = s.answers := by
  have hop : operation r s.answers = some ⟨[], .parameterError, s.answers⟩ :=
    operation_of_rejected _ (by rcases ho with h | h <;> simp [h]) (firstSend_of_outOfRange ho hv)
  obtain ⟨-, t, htrace, hidle, -, hrequests, hanswers⟩ := stepsRefineTheOperation s r rest _ hrst hs hq hop
  exact ⟨t, htrace, hidle, hrequests, hanswers⟩

/-- SCR and SCO with a first send take two steps: the send, and the response that the answer to it gives
(spec R84, R91). -/
theorem exists_run_of_oneSend {s : State} {r : ReqWord} {rest : List ReqWord} {w : Word} {b : Answer}
    {more : List Answer} (hrst : s.rst = false) (hs : s.phase = .idle) (hq : s.requests = r :: rest)
    (ho : opcode r = .scr ∨ opcode r = .sco) (hf : firstSend r = some w) (ha : s.answers = b :: more) :
    ∃ t result, EndsWith b result ∧
      traceRun 2 s = some ([⟨some (.req r), some (.txStart w)⟩, ⟨some (.txDone b), some (.rsp result)⟩], t) ∧
      t.phase = .idle ∧ t.requests = rest ∧ t.answers = more := by
  have hop : operation r s.answers = some ⟨[w], resultOf b, more⟩ := by
    rw [operation_of_oneSend _ ho hf, ha, lastSend]
  obtain ⟨-, t, htrace, hidle, -, hrequests, hanswers⟩ := stepsRefineTheOperation s r rest _ hrst hs hq hop
  rw [ha] at htrace
  exact ⟨t, resultOf b, endsWith_resultOf b, htrace, hidle, hrequests, hanswers⟩

/-- Settles O24: by the range of the operands, the run of a rejected request or that of W_REG, its one send. -/
theorem setChannelRegisterRun : Obligations.SetChannelRegisterRun := by
  intro s r rest hrst hs hq hfield
  have ho : opcode r = .scr := (opcode_scr_iff r).2 hfield
  refine ⟨fun hv => ?outOfRange, fun hv b more ha => ?inRange⟩
  case outOfRange => exact exists_run_of_outOfRange hrst hs hq (.inl ho) hv
  case inRange => exact exists_run_of_oneSend hrst hs hq (.inl ho) (firstSend_of_inRange (.inl ho) hv) ha

end Machine

end Sys2Proof

/-! The family of SetChannelOutputs (spec R89 to R96): from its request to its response. -/

namespace Sys2Proof

namespace Machine

open Sys2Proof.Safety

/-- Settles O25: SCO is an operation of one send, and its first send is the operand, whatever the channel field. -/
theorem setChannelOutputsRun : Obligations.SetChannelOutputsRun := by
  intro s r rest hrst hs hq hfield b more ha
  have ho : opcode r = .sco := (opcode_sco_iff r).2 hfield
  exact exists_run_of_oneSend hrst hs hq (.inr ho) (firstSend_of_sco ho) ha

end Machine

end Sys2Proof

/-! The family of SetDirectOutput (spec R97 to R106): from its request to its response. -/

namespace Sys2Proof

namespace Machine

open Sys2Proof.Safety

/-- A fail to the first send of an SDO ends it, with no second send (spec R99; R100 row 2). -/
theorem operation_of_sdo_fail {r : ReqWord} (ho : opcode r = .sdo) (hv : InRange (channelField r) (valueField r))
    (more : List Answer) :
    operation r (.fail :: more) = some ⟨[wReg (channelField r) (valueField r)], .transportError, more⟩ := by
  simp [operation, ho, (valid_iff _ _).2 hv]

/-- After an ok to its first send an SDO ends with the answer to its second (spec R99; R100 rows 3 and 4). -/
theorem operation_of_sdo_ok {r : ReqWord} (ho : opcode r = .sdo) (hv : InRange (channelField r) (valueField r))
    (b : Answer) (more : List Answer) :
    operation r (.ok :: b :: more) =
      some ⟨[wReg (channelField r) (valueField r), wEn1 (channelField r)], resultOf b, more⟩ := by
  simp [operation, ho, (valid_iff _ _).2 hv, lastSend]

/-- Settles O26: each case is a way the operation can go, and the steps run it; in range `wEn1` is R71's formula. -/
theorem setDirectOutputRun : Obligations.SetDirectOutputRun := by
  intro s r rest hrst hs hq hfield
  have ho : opcode r = .sdo := (opcode_sdo_iff r).2 hfield
  refine ⟨fun hv => ?outOfRange, fun hv more ha => ?firstFails, fun hv b more ha => ?secondAnswered⟩
  case outOfRange => exact exists_run_of_outOfRange hrst hs hq (.inr ho) hv
  case firstFails =>
    have hop : operation r s.answers = some _ := ha ▸ operation_of_sdo_fail ho hv more
    obtain ⟨-, t, htrace, hidle, -, hrequests, hanswers⟩ := stepsRefineTheOperation s r rest _ hrst hs hq hop
    rw [ha] at htrace
    exact ⟨t, htrace, hidle, hrequests, hanswers⟩
  case secondAnswered =>
    have hop : operation r s.answers = some _ := ha ▸ operation_of_sdo_ok ho hv b more
    obtain ⟨-, t, htrace, hidle, -, hrequests, hanswers⟩ := stepsRefineTheOperation s r rest _ hrst hs hq hop
    rw [ha, wEn1_of_le hv.1] at htrace
    exact ⟨t, resultOf b, endsWith_resultOf b, htrace, hidle, hrequests, hanswers⟩

end Machine

end Sys2Proof

/-! The exceptions family (spec R107 to R119, R126): the result codes, and the reset, taken as the launch only. -/

namespace Sys2Proof

namespace Machine

open Sys2Proof.Safety

/-- Settles O42: by the case on the result. -/
theorem resultCodesAreThree : Obligations.ResultCodesAreThree := by
  refine ⟨rfl, rfl, rfl, fun r => ?_⟩
  cases r <;> decide

/-- Settles O23: a step with a reset asserted is the launch, and each clause is one case of it. -/
theorem stepRefusesResetInFlight : Obligations.StepRefusesResetInFlight := by
  intro s hrst
  rw [step_of_rst hrst]
  refine ⟨fun hbusy => ?inFlight, fun hidle hstarted => ?afterFirstRequest, fun hidle hfresh => ?asLaunch⟩
  case inFlight => exact launch_of_busy hbusy
  case afterFirstRequest => exact launch_of_started hidle hstarted
  case asLaunch =>
    exact ⟨_, (launch_next_iff _ _).2 ⟨hidle, hfresh, rfl⟩, rfl, output_onReset _, rfl, rfl, rfl, rfl⟩

/-- What every step keeps holds at the end of every run. -/
theorem traceRun_keeps {P : State → Prop} (hkeep : ∀ s t, Move s t → P s → P t) {n : Nat} {s t : State}
    {ts : List Transition} (h : traceRun n s = some (ts, t)) (hs : P s) : P t := by
  induction n generalizing s ts with
  | zero =>
    obtain ⟨-, rfl⟩ : [] = ts ∧ s = t := by simpa using h
    exact hs
  | succ n ih =>
    obtain ⟨u, us, hstep, hrun, -⟩ := traceRun_succ_cases h
    exact ih hrun (hkeep s u (move_of_step hstep) hs)

/-- After a run the record is there exactly if it was before, or a step of the run accepted a request. -/
theorem traceRun_started_iff {n : Nat} {s t : State} {ts : List Transition} (h : traceRun n s = some (ts, t)) :
    t.started = true ↔ s.started = true ∨ ∃ e ∈ ts, ∃ r, e.input = some (.req r) := by
  induction n generalizing s ts with
  | zero =>
    obtain ⟨rfl, rfl⟩ : [] = ts ∧ s = t := by simpa using h
    simp
  | succ n ih =>
    obtain ⟨u, us, hstep, hrun, rfl⟩ := traceRun_succ_cases h
    rw [ih hrun, (move_of_step hstep).started_iff]
    simp [or_assoc]

/-- Every step keeps a block idle before its first request (spec R126): the part of `RunRecord` that says nothing of
the response pulse, which an arbitrary idle block may still show. -/
theorem Move.idle_of_not_started {s t : State} (h : Move s t) (hs : s.started = false → s.phase = .idle) :
    t.started = false → t.phase = .idle := by
  cases h with
  | wait => exact hs
  | launch => exact fun _ => rfl
  | start => simp
  | reject => exact fun _ => rfl
  | finish => exact fun _ => rfl
  | secondSend _ htx1 => exact fun hfresh => absurd (hs hfresh) (by simp [htx1])

/-- Settles O47: the record tells after any run whether a request was accepted, and without one the block has stayed
idle; the step with the reset is then a case of O23. -/
theorem runTakesResetOnlyAsTheLaunch : Obligations.RunTakesResetOnlyAsTheLaunch := by
  intro n s t ts hrun
  obtain ⟨hinFlight, hafter, hlaunch⟩ := stepRefusesResetInFlight { t with rst := true } rfl
  refine ⟨fun haccepted => ?accepted, fun hidle hfresh hnone => ?noneAccepted⟩
  case accepted =>
    have hstarted : t.started = true := (traceRun_started_iff hrun).2 (.inr haccepted)
    exact ⟨hinFlight, fun hidle => hafter hidle hstarted⟩
  case noneAccepted =>
    have htfresh : t.started = false := by
      rw [Bool.eq_false_iff, ne_eq, traceRun_started_iff hrun]
      rintro (hstarted | ⟨e, he, r, hr⟩)
      · simp [hfresh] at hstarted
      · exact hnone e he r hr
    have htidle : t.phase = .idle :=
      traceRun_keeps (fun _ _ => Move.idle_of_not_started) hrun (fun _ => hidle) htfresh
    obtain ⟨u, hstep, huidle, hsilent, -, -, hrequests, -⟩ := hlaunch htidle htfresh
    exact ⟨u, hstep, huidle, hsilent, hrequests⟩

end Machine

end Sys2Proof

/-! The end of an operation (spec R138): within two answers, or never under a silent transport. -/

namespace Sys2Proof

namespace Machine

open Sys2Proof.Safety

/-- In flight, each answer either ends the operation or starts the last send it can have: with two answers to come the
response is there after at most two steps (spec R138). -/
theorem exists_run_of_busy {s : State} (hinv : BlockInv s) (hrst : s.rst = false) (hs : s.phase ≠ .idle)
    (hlen : 2 ≤ s.answers.length) :
    ∃ n ts t, n ≤ 2 ∧ traceRun n s = some (ts, t) ∧ t.phase = .idle ∧ t.rspValid = true ∧
      t.requests = s.requests := by
  obtain ⟨b, b', more, ha⟩ : ∃ b b' more, s.answers = b :: b' :: more :=
    match s.answers, hlen with
    | b :: b' :: more, _ => ⟨b, b', more, rfl⟩
  obtain hends | ⟨htx1, rfl, hsdo | hres⟩ := answer_cases b hs
  · exact ⟨1, _, _, by decide, traceRun_finish hrst hends ha, rfl, rfl, rfl⟩
  · have hsecond := traceRun_secondSend hrst htx1 hsdo ha
      (traceRun_finish hrst (.inl rfl) (congrArg List.tail ha))
    exact ⟨2, _, _, le_rfl, hsecond, rfl, rfl, rfl⟩
  · exact absurd hres (firstSend_not_reserved (hinv.1 htx1))

/-- A presented request is rejected at once, or its first send leaves the block in flight with every answer to come
(spec R28, R138). -/
theorem exists_run_of_presented {s : State} {r : ReqWord} {rest : List ReqWord} (hinv : BlockInv s)
    (hrst : s.rst = false) (hs : s.phase = .idle) (hq : s.requests = r :: rest) (hr : opcode r ≠ .reserved)
    (hlen : 2 ≤ s.answers.length) :
    ∃ n ts t, n ≤ 3 ∧ traceRun n s = some (ts, t) ∧ t.phase = .idle ∧ t.rspValid = true ∧ t.requests = rest := by
  have hn := nextEvent_of_request hrst hs hq
  cases hf : firstSend r with
  | none =>
    exact ⟨1, _, _, by decide, traceRun_of_move hn (.reject hn hr hf) rfl, rfl, rfl, by simp [hq]⟩
  | some w =>
    have hstart := Move.start hn hf
    obtain ⟨n, ts, t, hle, hrun, hidle, hrsp, hreq⟩ :=
      exists_run_of_busy (hstart.blockInv hinv) (hstart.rst_of_rst hrst) (by simp) hlen
    exact ⟨n + 1, _, t, Nat.succ_le_succ hle, traceRun_of_move hn hstart hrun, hidle, hrsp, by simp [hreq, hq]⟩

/-- A transport that never answers hangs the operation: every step is the wait (spec R12, R138). -/
theorem exists_run_of_silent (n : Nat) {s : State} (hrst : s.rst = false) (hs : s.phase ≠ .idle)
    (ha : s.answers = []) : ∃ ts t, traceRun n s = some (ts, t) ∧ t.phase = s.phase := by
  induction n generalizing s with
  | zero => exact ⟨[], s, rfl, rfl⟩
  | succ n ih =>
    obtain ⟨u, hstep, hphase, -, -, -, -, hanswers, hkeep⟩ := waitingSendHoldsItsWord s hrst hs ha
    obtain ⟨ts, t, hrun, ht⟩ := ih (hkeep.trans hrst) (hphase ▸ hs) (hanswers.trans ha)
    exact ⟨_, t, by rw [traceRun_of_next n hstep, hrun]; rfl, ht.trans hphase⟩

/-- Settles O40: the bound in flight, the bound from the request, which is one step more, and the hang. -/
theorem operationEndsWithinTwoAnswers : Obligations.OperationEndsWithinTwoAnswers := by
  intro s hinv hrst
  refine ⟨fun hs hlen => ?inFlight, fun r rest hs hq hadmitted hlen => ?presented, fun hs ha n => ?silent⟩
  case inFlight =>
    obtain ⟨n, ts, t, hle, hrun, hidle, hrsp, -⟩ := exists_run_of_busy hinv hrst hs hlen
    exact ⟨n, ts, t, hle, hrun, hidle, hrsp⟩
  case presented => exact exists_run_of_presented hinv hrst hs hq ((decodeRequest_admitted_iff r).1 hadmitted) hlen
  case silent => exact exists_run_of_silent n hrst hs ha

end Machine

end Sys2Proof
